-- ==== Sys2Proof/Word.lean ====
section
/-! DEFINITION. The words of A52CORE's command and read ports (00_scope.md R103, 30_encoding.md R190, R192). -/

namespace Sys2Proof

/-- An 8-bit value: an opcode, a key byte, a selector, one byte of a packed stream. -/
abbrev Byte := BitVec 8

/-- A 32-bit value: the command operand, `rdata`, the status word (R103). -/
abbrev Word := BitVec 32

/-- The 40-bit command word `{cmd_op, cmd_data}` (R191, R192). -/
abbrev CmdWord := BitVec 40

end Sys2Proof
end

