-- ==== Sys2Proof/Syntax.lean ====
section
/-! DEFINITION. The commands: one constructor per row of spec/opcode_table.json (30_encoding.md R192, R193, R197). -/

namespace Sys2Proof

/-- A decoded command. The six last rows are R197's `RESERVED(op)`, cut as the opcode table cuts them; each keeps its
opcode where the row leaves opcode bits free. -/
inductive Instr where
  /-- R350. -/
  | nop
  /-- R237: `forceAll`, `loadLastBit`. -/
  | clock (forceAll loadLastBit : Bool)
  /-- R265. -/
  | outbit
  /-- R284. -/
  | keyclr
  /-- R285: the key byte `B`. -/
  | keybyte (b : Byte)
  /-- R286: the frame number `N`, already the low 22 bits of the operand. -/
  | frame (n : BitVec 22)
  /-- R290. -/
  | setup
  /-- R320. -/
  | run
  /-- R323. -/
  | generate
  /-- R351: the selector `SEL`. -/
  | read (sel : Byte)
  /-- R352. -/
  | clrerr
  /-- R353, opcode 0x0B. -/
  | reserved0B
  /-- R353, opcodes 0x0C-0x0F. -/
  | reserved0C0F (op : Byte)
  /-- R353, opcodes 0x10-0x1F. -/
  | reserved101F (op : Byte)
  /-- R353, opcodes 0x20-0x3F. -/
  | reserved203F (op : Byte)
  /-- R353, opcodes 0x40-0x7F. -/
  | reserved407F (op : Byte)
  /-- R353, opcodes 0x80-0xFF. -/
  | reserved80FF (op : Byte)
deriving DecidableEq, Repr

/-- The opcode of the opcode map (R192), which a reserved command carries itself. -/
def Instr.opcode : Instr → Byte
  | .nop => 0x00
  | .clock _ _ => 0x01
  | .outbit => 0x02
  | .keyclr => 0x03
  | .keybyte _ => 0x04
  | .frame _ => 0x05
  | .setup => 0x06
  | .run => 0x07
  | .generate => 0x08
  | .read _ => 0x09
  | .clrerr => 0x0A
  | .reserved0B => 0x0B
  | .reserved0C0F op => op
  | .reserved101F op => op
  | .reserved203F op => op
  | .reserved407F op => op
  | .reserved80FF op => op

/-- Whether a command is R197's `RESERVED(op)`. -/
def Instr.isReserved : Instr → Bool
  | .nop | .clock _ _ | .outbit | .keyclr | .keybyte _ | .frame _ => false
  | .setup | .run | .generate | .read _ | .clrerr => false
  | .reserved0B | .reserved0C0F _ | .reserved101F _ => true
  | .reserved203F _ | .reserved407F _ | .reserved80FF _ => true

end Sys2Proof
end

