-- ==== Sys2Proof/WellFormed.lean ====
section
/-! DEFINITION. Which terms of `Instr` are commands: a reserved command's opcode lies in its row of the opcode map.
Every other operand is as wide as its field (30_encoding.md R193), so its type is its check. -/

namespace Sys2Proof

/-- An opcode lies in a row's range. -/
def opcodeIn (lo hi : Nat) (op : Byte) : Bool := decide (lo ≤ op.toNat) && decide (op.toNat ≤ hi)

/-- The check of one command, as a Bool. -/
def Instr.wellFormed : Instr → Bool
  | .nop | .clock _ _ | .outbit | .keyclr | .keybyte _ | .frame _ => true
  | .setup | .run | .generate | .read _ | .clrerr => true
  | .reserved0B => true
  | .reserved0C0F op => opcodeIn 0x0C 0x0F op
  | .reserved101F op => opcodeIn 0x10 0x1F op
  | .reserved203F op => opcodeIn 0x20 0x3F op
  | .reserved407F op => opcodeIn 0x40 0x7F op
  | .reserved80FF op => opcodeIn 0x80 0xFF op

/-- A command of the opcode map. -/
abbrev Instr.WellFormed (i : Instr) : Prop := i.wellFormed = true

end Sys2Proof
end

