-- ==== Sys2Proof/Decode.lean ====
section
/-! DEFINITION. The decoder of a command word (30_encoding.md R197) and the encoder (R192, R193, R199). -/

namespace Sys2Proof

/-- The opcode field `cmd[39:32]` (R192). -/
def opField (w : CmdWord) : Byte := w.extractLsb' 32 8

/-- The operand field `cmd[31:0]` (R192). -/
def dataField (w : CmdWord) : Word := w.extractLsb' 0 32

/-- The row of the opcode table that a reserved opcode, 0x0B-0xFF, falls in (R195). -/
def decodeReserved (op : Byte) : Instr :=
  if op.toNat < 0x0C then .reserved0B
  else if op.toNat < 0x10 then .reserved0C0F op
  else if op.toNat < 0x20 then .reserved101F op
  else if op.toNat < 0x40 then .reserved203F op
  else if op.toNat < 0x80 then .reserved407F op
  else .reserved80FF op

/-- `Decode`, "total on all 2^40 command words" (R197): no word is refused, and a bit that the opcode does not use is
not looked at (R194). -/
def decode (w : CmdWord) : Instr :=
  let op := opField w
  let d := dataField w
  match op.toNat with
  | 0x00 => .nop
  | 0x01 => .clock (d.getLsbD 0) (d.getLsbD 1)
  | 0x02 => .outbit
  | 0x03 => .keyclr
  | 0x04 => .keybyte (d.extractLsb' 0 8)
  | 0x05 => .frame (d.extractLsb' 0 22)
  | 0x06 => .setup
  | 0x07 => .run
  | 0x08 => .generate
  | 0x09 => .read (d.extractLsb' 0 8)
  | 0x0A => .clrerr
  | _ => decodeReserved op

/-- The operand word of a command: its fields at the places R193 gives, every unused bit 0 (R194, R199). -/
def encodeData : Instr → Word
  | .clock f l => (0 : BitVec 30) ++ BitVec.ofBool l ++ BitVec.ofBool f
  | .keybyte b => (0 : BitVec 24) ++ b
  | .frame n => (0 : BitVec 10) ++ n
  | .read sel => (0 : BitVec 24) ++ sel
  | .nop | .outbit | .keyclr | .setup | .run | .generate | .clrerr => 0
  | .reserved0B | .reserved0C0F _ | .reserved101F _ => 0
  | .reserved203F _ | .reserved407F _ | .reserved80FF _ => 0

/-- The command word of a well-formed command (R192). -/
def encode (i : Instr) : CmdWord := i.opcode ++ encodeData i

/-- The command whose word has the low `nbits` bits of `w` and zeros above. "Every command is one 40-bit word" and
"there are no other lengths" (R192): a longer word is refused (log entry 11). -/
def decodeTableWord (nbits w : Nat) : Option Instr :=
  if nbits ≤ 40 then some (decode (BitVec.ofNat 40 (w % 2 ^ nbits))) else none

end Sys2Proof
end

