-- ==== Sys2Proof/Config.lean ====
section
/-! DEFINITION. The two configuration parameters of the cipher function (00_scope.md R102).
They are constants of one block: `Machine.State` carries them beside the block's state and no step writes them
(log entry 3), so a claim over all states is a claim over all parameter values. -/

namespace Sys2Proof.Config

/-- `P_CLK_TAPS = (t1, t2, t3)`: the bit positions of `R4` that govern `R1`, `R2` and `R3`. "Each `t_k` must be in
0..16" (R102). -/
structure ClkTaps where
  t1 : Fin 17
  t2 : Fin 17
  t3 : Fin 17
deriving DecidableEq, Repr

/-- `P_R2_OUT = (a, b, c)`: the bit positions of `R2` in `maj(NOT R2[a], R2[b], R2[c])` (R102).
DEDUCED: R102 gives no range; a position of a 22-bit register is in 0..21 (log entry 3; safe). -/
structure R2Out where
  a : Fin 22
  b : Fin 22
  c : Fin 22
deriving DecidableEq, Repr

/-- The spec's default of `P_CLK_TAPS` (R102, 92_eei_decisions.md D1). -/
def ClkTaps.default : ClkTaps := ⟨10, 3, 7⟩

/-- `DOC`, the document's literal and the spec's normative default of `P_R2_OUT` (R102, D2). -/
def R2Out.doc : R2Out := ⟨16, 14, 12⟩

/-- `PUBLISHED`, the second named value of `P_R2_OUT` (R102, D2). -/
def R2Out.published : R2Out := ⟨16, 13, 9⟩

/-- Both parameters of one block. -/
structure Params where
  clkTaps : ClkTaps
  r2Out : R2Out
deriving DecidableEq, Repr

/-- The parameters at the spec's defaults. -/
def Params.default : Params := ⟨ClkTaps.default, R2Out.doc⟩

/-- The parameters the known-vector test needs (D27). -/
def Params.published : Params := ⟨ClkTaps.default, R2Out.published⟩

end Sys2Proof.Config
end

