-- ==== Sys2Proof/Machine/State.lean ====
section
/-! DEFINITION. The state of one A52CORE block (10_state.md R155), the values its input ports take at the coming
edges, the reasons a step can stop, and the state after reset. -/

namespace Sys2Proof.Machine

/-- The cipher state `C = (R1, R2, R3, R4, DELAY)` (R120), each register exactly as wide as its mask (R121). -/
structure Cipher where
  r1 : BitVec 19
  r2 : BitVec 22
  r3 : BitVec 23
  r4 : BitVec 17
  delay : Bool
deriving DecidableEq, Repr

/-- `PHASE`, a type with the seven legal values (R140, 93_implementation_defined.md I6; log entry 5). -/
inductive Phase where
  | idle
  | loadKey
  | loadFrame
  | diffuse
  | prime
  | runA
  | runB
deriving DecidableEq, Repr

/-- What the host drives on the input ports at one rising edge (30_encoding.md R190). -/
structure Ports where
  rst : Bool
  cmdValid : Bool
  cmdOp : BitVec 8
  cmdData : BitVec 32
deriving DecidableEq, Repr

/-- Why a step can stop with a fault. -/
inductive Fault where
  /-- Raised by a sequencer edge whose `CNT` is above the last value of its phase, for which R291-R293 and R321 give no
  rule. No run from reset meets it (log entry 4). Safe: the model stops where the spec says nothing. -/
  | cntOutsidePhase
deriving DecidableEq, Repr

/-- Why a step can be refused. -/
inductive Refusal where
  /-- Raised by an arm of `exec` whose command has no meaning yet. No arm of this model raises it. Safe. -/
  | notModelled (mnemonic : String)
deriving DecidableEq, Repr

/-- The state: the seventeen fields of R155's table, then three fields of the model's own. -/
structure State where
  /-- `R1`-`R4` and `DELAY` (R120). -/
  cipher : Cipher
  /-- `KEY` (R125). -/
  key : BitVec 64
  /-- `KEYCNT` (R126). -/
  keycnt : BitVec 4
  /-- `FRAME` (R127). -/
  frame : BitVec 22
  /-- `SA`, stream bit `i` at bit `i` (R128). -/
  sa : BitVec 114
  /-- `SB`, stream bit `i` at bit `i` (R128). -/
  sb : BitVec 114
  /-- `RDATA` (R129). -/
  rdata : BitVec 32
  /-- `ERR_KEYLEN` (R151). -/
  errKeylen : Bool
  /-- `ERR_CMD` (R152). -/
  errCmd : Bool
  /-- `KS_VALID` (R153). -/
  ksValid : Bool
  /-- `PHASE` (R140). -/
  phase : Phase
  /-- `CNT` (R141). -/
  cnt : BitVec 7
  /-- `CHAIN` (R141; log entry 6). -/
  chain : Bool
  /-- The MODEL's own: this block's parameters (00_scope.md R102), constants that no step writes.
  DESIGN CHOICE, log entry 3. -/
  params : Config.Params
  /-- The MODEL's own: a free value, which of the spec's two readings of `CHAIN` in RUNA and RUNB of a `GENERATE` holds
  of this block. `false`, the value at reset: `CHAIN` is 0 from RUNA on, as R141 says. `true`: it stays 1 until the last
  RUNB edge, as the vector V-SEQ-1 shows. A constant that no step writes. DEDUCED, log entry 6. -/
  chainHeld : Bool
  /-- The MODEL's own: what the host drives at the coming edges, the next edge first; past the end the host keeps
  quiet. DESIGN CHOICE, log entries 1 and 2. -/
  inputs : List Ports
deriving DecidableEq, Repr

/-- The machine right after reset: every field of R155's table at its reset value. The parameters are R102's defaults
(log entry 3), `CHAIN` is read as R141 says (log entry 6), and the host keeps quiet (log entry 2). -/
def State.reset : State where
  cipher := { r1 := 0, r2 := 0, r3 := 0, r4 := 0, delay := false }
  key := 0
  keycnt := 0
  frame := 0
  sa := 0
  sb := 0
  rdata := 0
  errKeylen := false
  errCmd := false
  ksValid := false
  phase := .idle
  cnt := 0
  chain := false
  params := Config.Params.default
  chainHeld := false
  inputs := []

end Sys2Proof.Machine
end

