-- ==== Sys2Proof/Machine/Cipher.lean ====
section
/-! DEFINITION. The pure functions of the cipher: parity and majority (00_scope.md R105), the register advance and the
clock controller (file 40), the output combiner and generator (file 41), bit injection (file 42). -/

namespace Sys2Proof.Machine

/-- The XOR of the `k` lowest bits of `v`. -/
def parityBelow {n : Nat} (v : BitVec n) : Nat → Bool
  | 0 => false
  | k + 1 => parityBelow v k ^^ v.getLsbD k

/-- `parity(v)`: "XOR-sum of all bits in a value, reduced modulo 2" (R105). -/
def parity {n : Nat} (v : BitVec n) : Bool := parityBelow v n

/-- `maj(a, b, c)`: at least two of the three are true (R105). -/
def maj (a b c : Bool) : Bool := decide (2 ≤ a.toNat + b.toNat + c.toNat)

/-- The tap masks `T1`-`T4` (R230). -/
def tapMask1 : BitVec 19 := 0x072000
def tapMask2 : BitVec 22 := 0x300000
def tapMask3 : BitVec 23 := 0x700080
def tapMask4 : BitVec 17 := 0x010800

/-- `Advance_k(r, L)` (R232) of a register with tap mask `tapMask` and forced bit `forced`: shift left within the
width, bit 0 takes the parity of the tapped bits, and with `L` the forced bit is set after the shift. -/
def advance {n : Nat} (tapMask : BitVec n) (forced : Nat) (r : BitVec n) (l : Bool) : BitVec n :=
  let p := parity (r &&& tapMask)
  let shifted := (r <<< 1) ||| (BitVec.ofBool p).setWidth n
  if l then shifted ||| BitVec.twoPow n forced else shifted

/-- `Advance_1`, forced bit `FB1 = 15` (R231). -/
def advance1 (r : BitVec 19) (l : Bool) : BitVec 19 := advance tapMask1 15 r l
/-- `Advance_2`, forced bit `FB2 = 16` (R231). -/
def advance2 (r : BitVec 22) (l : Bool) : BitVec 22 := advance tapMask2 16 r l
/-- `Advance_3`, forced bit `FB3 = 18` (R231). -/
def advance3 (r : BitVec 23) (l : Bool) : BitVec 23 := advance tapMask3 18 r l
/-- `Advance_4`, forced bit `FB4 = 10` (R231). -/
def advance4 (r : BitVec 17) (l : Bool) : BitVec 17 := advance tapMask4 10 r l

/-- The clock-control bits `c1`, `c2`, `c3` (R233), read from `R4` before it advances. -/
def ctrl1 (P : Config.ClkTaps) (r4 : BitVec 17) : Bool := r4.getLsbD P.t1
def ctrl2 (P : Config.ClkTaps) (r4 : BitVec 17) : Bool := r4.getLsbD P.t2
def ctrl3 (P : Config.ClkTaps) (r4 : BitVec 17) : Bool := r4.getLsbD P.t3

/-- The vote `m = maj(c1, c2, c3)` (R233). -/
def vote (P : Config.ClkTaps) (r4 : BitVec 17) : Bool := maj (ctrl1 P r4) (ctrl2 P r4) (ctrl3 P r4)

/-- `Clock(C, F, L)`, one application of the clock controller (R234, R235, R236). -/
def clock (P : Config.ClkTaps) (c : Cipher) (f l : Bool) : Cipher :=
  let m := vote P c.r4
  { r1 := if f || ctrl1 P c.r4 == m then advance1 c.r1 l else c.r1
    r2 := if f || ctrl2 P c.r4 == m then advance2 c.r2 l else c.r2
    r3 := if f || ctrl3 P c.r4 == m then advance3 c.r3 l else c.r3
    r4 := advance4 c.r4 l
    delay := c.delay }

/-- The linear part `top` of the combiner (R260). -/
def combineTop (c : Cipher) : Bool := c.r1.getLsbD 18 ^^ c.r2.getLsbD 21 ^^ c.r3.getLsbD 22

/-- The majority term `n1` of `R1` (R261). -/
def combineN1 (c : Cipher) : Bool := maj (c.r1.getLsbD 15) (!c.r1.getLsbD 14) (c.r1.getLsbD 12)

/-- The majority term `n2` of `R2`, at the positions of `P_R2_OUT` (R261). -/
def combineN2 (P : Config.R2Out) (c : Cipher) : Bool :=
  maj (!c.r2.getLsbD P.a) (c.r2.getLsbD P.b) (c.r2.getLsbD P.c)

/-- The majority term `n3` of `R3` (R261). -/
def combineN3 (c : Cipher) : Bool := maj (c.r3.getLsbD 18) (c.r3.getLsbD 16) (!c.r3.getLsbD 13)

/-- `Combine(R1, R2, R3)` (R262). -/
def combine (P : Config.R2Out) (c : Cipher) : Bool :=
  combineTop c ^^ combineN1 c ^^ combineN2 P c ^^ combineN3 c

/-- `OutputBit(C)` (R263): the bit returned is the old `DELAY`, and `DELAY` takes the bit just computed. -/
def outputBit (P : Config.R2Out) (c : Cipher) : Bool × Cipher :=
  (c.delay, { c with delay := combine P c })

/-- `Inject(C, b)`: the bit is XORed into bit 0 of each of the four registers (R282). -/
def inject (c : Cipher) (b : Bool) : Cipher :=
  { r1 := c.r1 ^^^ (BitVec.ofBool b).setWidth 19
    r2 := c.r2 ^^^ (BitVec.ofBool b).setWidth 22
    r3 := c.r3 ^^^ (BitVec.ofBool b).setWidth 23
    r4 := c.r4 ^^^ (BitVec.ofBool b).setWidth 17
    delay := c.delay }

/-- `LoadCycle(C, L, b) = Inject(Clock(C, 1, L), b)` (R283). -/
def loadCycle (P : Config.ClkTaps) (c : Cipher) (l b : Bool) : Cipher := inject (clock P c true l) b

/-- One keystream cycle, `OutputBit(Clock(C, 0, 0))` (R321). -/
def runCycle (P : Config.Params) (c : Cipher) : Bool × Cipher :=
  outputBit P.r2Out (clock P.clkTaps c false false)

/-- Step 1 of the loader: `R1`-`R4` become 0 and `DELAY` stays (R290, 10_state.md R123). -/
def zeroLfsrs (c : Cipher) : Cipher := { r1 := 0, r2 := 0, r3 := 0, r4 := 0, delay := c.delay }

end Sys2Proof.Machine
end

