-- ==== Sys2Proof/Machine/Ops.lean ====
section
/-! DEFINITION. The named writes to the state that commands and sequencer edges share: raising and clearing an error
(60_exceptions.md), the read-data register, the key bytes, the stream buffers, the sequencer's counter. -/

namespace Sys2Proof.Machine

/-- The two error conditions (60_exceptions.md R370, R371); "no other condition is an error" (R372). -/
inductive ErrorCause where
  /-- `KeyLen`, cause code 1 (R370). -/
  | keyLen
  /-- `BadCmd`, cause code 2 (R371). -/
  | badCmd
deriving DecidableEq, Repr

/-- The cause code, which is the error's bit position in the status word (R370, R371). -/
def causeCode : ErrorCause → Nat
  | .keyLen => 1
  | .badCmd => 2

/-- `raise KeyLen()` and `raise BadCmd()`: the flag is set and nothing else changes (R370, R371). An error is no trap:
it saves no state, changes no mode and goes to no vector (R374). -/
def raiseError (e : ErrorCause) (s : State) : State :=
  match e with
  | .keyLen => { s with errKeylen := true }
  | .badCmd => { s with errCmd := true }

/-- The one way back from an error: both flags become 0 (44_host_control.md R352, R374). -/
def clearErrors (s : State) : State := { s with errKeylen := false, errCmd := false }

/-- A new cipher state. -/
def setCipher (c : Cipher) (s : State) : State := { s with cipher := c }

/-- `RDATA <- v` (10_state.md R129). -/
def setRdata (v : Word) (s : State) : State := { s with rdata := v }

/-- `v` with bit `i` replaced by `b`. -/
def setBit {n : Nat} (v : BitVec n) (i : Nat) (b : Bool) : BitVec n :=
  (v &&& ~~~BitVec.twoPow n i) ||| ((BitVec.ofBool b).setWidth n <<< i)

/-- `KEY[8j+7:8j] <- b` (42_loader.md R285). -/
def setKeyByte (key : BitVec 64) (j : Nat) (b : Byte) : BitVec 64 :=
  (key &&& ~~~((0xFF : BitVec 64) <<< (8 * j))) ||| (b.setWidth 64 <<< (8 * j))

/-- `min(KEYCNT + 1, 15)` (R285). -/
def bumpKeycnt (k : BitVec 4) : BitVec 4 := BitVec.ofNat 4 (min (k.toNat + 1) 15)

/-- "Every phase change sets `CNT` to 0" (10_state.md R141). -/
def enterPhase (p : Phase) (s : State) : State := { s with phase := p, cnt := 0 }

/-- The tail of a counted sequencer edge: after the cycle numbered `last` the next phase starts, before it `CNT` goes
up by one (R291-R293, R321). -/
def advanceCount (last : Nat) (p : Phase) (s : State) : State :=
  if s.cnt.toNat = last then enterPhase p s else { s with cnt := s.cnt + 1 }

/-- The reset edge: every field of the block takes its reset value (70_reset_and_hazards.md R400). The parameters, the
reading of `CHAIN` and the host's coming samples are no fields of the block. -/
def resetBlock (s : State) : State := { State.reset with params := s.params, chainHeld := s.chainHeld, inputs := s.inputs }

end Sys2Proof.Machine
end

