-- ==== Sys2Proof/Machine/Flags.lean ====
section
/-! DEFINITION. The status word and the conditions computed from the state (10_state.md R150-R154). -/

namespace Sys2Proof.Machine

/-- The 3-bit code of `PHASE` (R140). -/
def phaseCode : Phase → BitVec 3
  | .idle => 0
  | .loadKey => 1
  | .loadFrame => 2
  | .diffuse => 3
  | .prime => 4
  | .runA => 5
  | .runB => 6

/-- BUSY, "a function of `PHASE`, not a flip-flop" (R150). -/
def busy (s : State) : Bool := s.phase != .idle

/-- The status word, from bit 31 down to bit 0 (R150). -/
def statusWord (s : State) : Word :=
  (0 : BitVec 13) ++ s.cnt ++ BitVec.ofBool s.chain ++ phaseCode s.phase ++ s.keycnt ++
    BitVec.ofBool s.ksValid ++ BitVec.ofBool s.errCmd ++ BitVec.ofBool s.errKeylen ++ BitVec.ofBool (busy s)

/-- The key length check of `SETUP` and `GENERATE` (10_state.md R126). -/
def keyLengthOk (s : State) : Bool := s.keycnt == 8

end Sys2Proof.Machine
end

