-- ==== Sys2Proof/Machine/Operands.lean ====
section
/-! DEFINITION. The read-selector space: the one operand form that addresses anything (20_memory.md R160-R162). -/

namespace Sys2Proof.Machine

/-- `StreamByte(S, j)`: stream bits `8j` to `8j+7`, most significant first; the positions above 113 are pad bits and
read 0 (R162). -/
def streamByte (v : BitVec 114) (j : Nat) : Byte :=
  BitVec.ofBool (v.getLsbD (8 * j)) ++ BitVec.ofBool (v.getLsbD (8 * j + 1)) ++
    BitVec.ofBool (v.getLsbD (8 * j + 2)) ++ BitVec.ofBool (v.getLsbD (8 * j + 3)) ++
    BitVec.ofBool (v.getLsbD (8 * j + 4)) ++ BitVec.ofBool (v.getLsbD (8 * j + 5)) ++
    BitVec.ofBool (v.getLsbD (8 * j + 6)) ++ BitVec.ofBool (v.getLsbD (8 * j + 7))

/-- `SelRead(sel)` (R161); `none` for a reserved selector. -/
def selRead (s : State) (sel : Byte) : Option Word :=
  let n := sel.toNat
  if n = 0x00 then some (s.cipher.r1.setWidth 32)
  else if n = 0x01 then some (s.cipher.r2.setWidth 32)
  else if n = 0x02 then some (s.cipher.r3.setWidth 32)
  else if n = 0x03 then some (s.cipher.r4.setWidth 32)
  else if n = 0x04 then some ((BitVec.ofBool s.cipher.delay).setWidth 32)
  else if n = 0x05 then some (s.frame.setWidth 32)
  else if n = 0x06 then some (statusWord s)
  else if 0x10 ≤ n ∧ n ≤ 0x1E then some ((streamByte s.sa (n - 0x10)).setWidth 32)
  else if 0x20 ≤ n ∧ n ≤ 0x2E then some ((streamByte s.sb (n - 0x20)).setWidth 32)
  else none

end Sys2Proof.Machine
end

