-- ==== Sys2Proof/Machine/ClockController.lean ====
section
/-! DEFINITION. The meaning of `CLOCK` (40_clock_controller.md R237). -/

namespace Sys2Proof.Machine

/-- `CLOCK F, L`: the clock controller once (R237). -/
def execClock (forceAll loadLastBit : Bool) (s : State) : Host.Outcome State Fault Refusal :=
  .next (setCipher (clock s.params.clkTaps s.cipher forceAll loadLastBit) s)

end Sys2Proof.Machine
end

