-- ==== Sys2Proof/Machine/HostControl.lean ====
section
/-! DEFINITION. The meanings of `NOP`, `READ`, `CLRERR` and the reserved opcodes (44_host_control.md). -/

namespace Sys2Proof.Machine

/-- `NOP` (R350). -/
def execNop (s : State) : Host.Outcome State Fault Refusal := .next s

/-- `READ SEL` (R351): the value at the start of this edge, or `BadCmd` with `RDATA` unchanged. -/
def execRead (sel : Byte) (s : State) : Host.Outcome State Fault Refusal :=
  match selRead s sel with
  | some v => .next (setRdata v s)
  | none => .next (raiseError .badCmd s)

/-- `CLRERR` (R352). -/
def execClrerr (s : State) : Host.Outcome State Fault Refusal := .next (clearErrors s)

/-- A reserved opcode: `raise BadCmd()` (R353; log entry 8). -/
def reservedEffect (s : State) : Host.Outcome State Fault Refusal := .next (raiseError .badCmd s)

/-- Opcode 0x0B (R353). -/
def execReserved0B (s : State) : Host.Outcome State Fault Refusal := reservedEffect s
/-- Opcodes 0x0C-0x0F (R353). -/
def execReserved0C0F (s : State) : Host.Outcome State Fault Refusal := reservedEffect s
/-- Opcodes 0x10-0x1F (R353). -/
def execReserved101F (s : State) : Host.Outcome State Fault Refusal := reservedEffect s
/-- Opcodes 0x20-0x3F (R353). -/
def execReserved203F (s : State) : Host.Outcome State Fault Refusal := reservedEffect s
/-- Opcodes 0x40-0x7F (R353). -/
def execReserved407F (s : State) : Host.Outcome State Fault Refusal := reservedEffect s
/-- Opcodes 0x80-0xFF (R353). -/
def execReserved80FF (s : State) : Host.Outcome State Fault Refusal := reservedEffect s

end Sys2Proof.Machine
end

