-- ==== Sys2Proof/Machine/Loader.lean ====
section
/-! DEFINITION. The meanings of `KEYCLR`, `KEYBYTE`, `FRAME` and `SETUP` (42_loader.md), and the start of the loader
that `SETUP` shares with `GENERATE`. -/

namespace Sys2Proof.Machine

/-- `KEYCLR` (R284). -/
def execKeyclr (s : State) : Host.Outcome State Fault Refusal :=
  .next { s with key := 0, keycnt := 0 }

/-- `KEYBYTE B` (R285): the ninth and later bytes count and are not stored. -/
def execKeybyte (b : Byte) (s : State) : Host.Outcome State Fault Refusal :=
  .next { s with
    key := if s.keycnt.toNat < 8 then setKeyByte s.key s.keycnt.toNat b else s.key
    keycnt := bumpKeycnt s.keycnt }

/-- `FRAME N` (R286). -/
def execFrame (n : BitVec 22) (s : State) : Host.Outcome State Fault Refusal :=
  .next { s with frame := n }

/-- The accepting edge of a loader sequence: step 1 zeroes `R1`-`R4`, and LOADKEY starts with the given `CHAIN`
(R290, 43_keystream.md R323). -/
def startLoader (chained : Bool) (s : State) : State :=
  { enterPhase .loadKey (setCipher (zeroLfsrs s.cipher) s) with errKeylen := false, chain := chained }

/-- `SETUP` (R290). -/
def execSetup (s : State) : Host.Outcome State Fault Refusal :=
  if keyLengthOk s then .next (startLoader false s) else .next (raiseError .keyLen s)

end Sys2Proof.Machine
end

