-- ==== Sys2Proof/Machine/Keystream.lean ====
section
/-! DEFINITION. The meanings of `RUN` and `GENERATE` (43_keystream.md). -/

namespace Sys2Proof.Machine

/-- `RUN` (R320): any cipher state will do, and no key length is checked. -/
def execRun (s : State) : Host.Outcome State Fault Refusal :=
  .next { enterPhase .runA s with ksValid := false, chain := false }

/-- `GENERATE` (R323). -/
def execGenerate (s : State) : Host.Outcome State Fault Refusal :=
  if keyLengthOk s then .next { startLoader true s with ksValid := false } else .next (raiseError .keyLen s)

end Sys2Proof.Machine
end

