-- ==== Sys2Proof/Machine/OutputGenerator.lean ====
section
/-! DEFINITION. The meaning of `OUTBIT` (41_output_generator.md R265). -/

namespace Sys2Proof.Machine

/-- `OUTBIT`: the output generator once; the returned bit goes to `RDATA[0]` (R265). -/
def execOutbit (s : State) : Host.Outcome State Fault Refusal :=
  let r := outputBit s.params.r2Out s.cipher
  .next (setRdata ((BitVec.ofBool r.1).setWidth 32) (setCipher r.2 s))

end Sys2Proof.Machine
end

