-- ==== Sys2Proof/Machine/Dispatch.lean ====
section
/-! DEFINITION. `Execute(S, i)` of 30_encoding.md R196: one arm per command. -/

namespace Sys2Proof.Machine

def exec (i : Instr) (s : State) : Host.Outcome State Fault Refusal :=
  match i with
  | .nop => Sys2Proof.Machine.execNop s
  | .clock forceAll loadLastBit => Sys2Proof.Machine.execClock forceAll loadLastBit s
  | .outbit => Sys2Proof.Machine.execOutbit s
  | .keyclr => Sys2Proof.Machine.execKeyclr s
  | .keybyte b => Sys2Proof.Machine.execKeybyte b s
  | .frame n => Sys2Proof.Machine.execFrame n s
  | .setup => Sys2Proof.Machine.execSetup s
  | .run => Sys2Proof.Machine.execRun s
  | .generate => Sys2Proof.Machine.execGenerate s
  | .read sel => Sys2Proof.Machine.execRead sel s
  | .clrerr => Sys2Proof.Machine.execClrerr s
  | .reserved0B => Sys2Proof.Machine.execReserved0B s
  | .reserved0C0F _ => Sys2Proof.Machine.execReserved0C0F s
  | .reserved101F _ => Sys2Proof.Machine.execReserved101F s
  | .reserved203F _ => Sys2Proof.Machine.execReserved203F s
  | .reserved407F _ => Sys2Proof.Machine.execReserved407F s
  | .reserved80FF _ => Sys2Proof.Machine.execReserved80FF s

end Sys2Proof.Machine
end

