-- ==== Sys2Proof/Machine/Ports.lean ====
section
/-! DEFINITION. The ports of the block at one rising edge (30_encoding.md R190, R191). -/

namespace Sys2Proof.Machine

/-- A host that neither resets nor presents a command. -/
def quietPorts : Ports := { rst := false, cmdValid := false, cmdOp := 0, cmdData := 0 }

/-- A host that presents a command word with `rst = 0`. -/
def presentPorts (w : CmdWord) : Ports :=
  { rst := false, cmdValid := true, cmdOp := w.extractLsb' 32 8, cmdData := w.extractLsb' 0 32 }

/-- The 40-bit word `{cmd_op, cmd_data}` (R191). -/
def Ports.cmd (p : Ports) : CmdWord := p.cmdOp ++ p.cmdData

/-- What the host drives at this edge; past the end of the list it keeps quiet (log entry 2). -/
def State.portsNow (s : State) : Ports := s.inputs.headD quietPorts

/-- The samples of the edges after this one. -/
def dropSample (s : State) : State := { s with inputs := s.inputs.tail }

/-- The output `cmd_ready` (R191). -/
def State.cmdReady (s : State) (rst : Bool) : Bool := (s.phase == .idle) && !rst

/-- A command is accepted at this edge (R191). -/
def State.accepts (s : State) (p : Ports) : Bool := p.cmdValid && s.cmdReady p.rst

/-- The output `rdata` (R190). -/
def State.rdataPort (s : State) : Word := s.rdata

/-- The output `status` (R190). -/
def State.statusPort (s : State) : Word := statusWord s

end Sys2Proof.Machine
end

