-- ==== Sys2Proof/Machine/Sequencer.lean ====
section
/-! DEFINITION. `SequencerStep`: one rising edge of a busy block (42_loader.md R291-R294, 43_keystream.md R321). -/

namespace Sys2Proof.Machine

/-- A LOADKEY edge: load cycle with key bit `CNT` (R291). -/
def loadKeyEdge (s : State) : Host.Outcome State Fault Refusal :=
  let i := s.cnt.toNat
  if i ≤ 63 then
    .next (advanceCount 63 .loadFrame
      (setCipher (loadCycle s.params.clkTaps s.cipher false (s.key.getLsbD i)) s))
  else .fault .cntOutsidePhase

/-- A LOADFRAME edge: load cycle with frame bit `CNT`, the last one with `L = 1` (R292). -/
def loadFrameEdge (s : State) : Host.Outcome State Fault Refusal :=
  let i := s.cnt.toNat
  if i ≤ 21 then
    .next (advanceCount 21 .diffuse
      (setCipher (loadCycle s.params.clkTaps s.cipher (i == 21) (s.frame.getLsbD i)) s))
  else .fault .cntOutsidePhase

/-- A DIFFUSE edge: majority clocking, no output (R293). -/
def diffuseEdge (s : State) : Host.Outcome State Fault Refusal :=
  if s.cnt.toNat ≤ 99 then
    .next (advanceCount 99 .prime (setCipher (clock s.params.clkTaps s.cipher false false) s))
  else .fault .cntOutsidePhase

/-- The PRIME edge: the output generator once, its bit discarded (R294). The rule does not read `CNT`.
`CHAIN` decides where the sequence goes (R294) and is 1 in LOADKEY to PRIME alone (10_state.md R141), so this edge ends
it; with the free value `chainHeld` it stays 1 up to the last RUNB edge, as V-SEQ-1 shows (log entry 6). -/
def primeEdge (s : State) : Host.Outcome State Fault Refusal :=
  .next { enterPhase (if s.chain then .runA else .idle) (setCipher (outputBit s.params.r2Out s.cipher).2 s) with
    chain := s.chain && s.chainHeld }

/-- A RUNA edge: clock, then extract into `SA[CNT]` (R321). -/
def runAEdge (s : State) : Host.Outcome State Fault Refusal :=
  let i := s.cnt.toNat
  let r := runCycle s.params s.cipher
  if i ≤ 113 then
    .next (advanceCount 113 .runB { setCipher r.2 s with sa := setBit s.sa i r.1 })
  else .fault .cntOutsidePhase

/-- A RUNB edge: clock, then extract into `SB[CNT]`; the last one ends the sequence and sets `KS_VALID` (R321). -/
def runBEdge (s : State) : Host.Outcome State Fault Refusal :=
  let i := s.cnt.toNat
  let r := runCycle s.params s.cipher
  let s1 := { setCipher r.2 s with sb := setBit s.sb i r.1 }
  if i < 113 then .next { s1 with cnt := s1.cnt + 1 }
  else if i = 113 then .next { enterPhase .idle s1 with chain := false, ksValid := true }
  else .fault .cntOutsidePhase

/-- One edge of the sequence in progress (30_encoding.md R196); an idle block has none and holds its state. -/
def sequencerStep (s : State) : Host.Outcome State Fault Refusal :=
  match s.phase with
  | .idle => .next s
  | .loadKey => loadKeyEdge s
  | .loadFrame => loadFrameEdge s
  | .diffuse => diffuseEdge s
  | .prime => primeEdge s
  | .runA => runAEdge s
  | .runB => runBEdge s

end Sys2Proof.Machine
end

