-- ==== Sys2Proof/Machine/Step.lean ====
section
/-! DEFINITION. The step of one rising edge of `clk` (30_encoding.md R196). -/

namespace Sys2Proof.Machine

/-- `Step(S, rst, cmd_valid, cmd)` of R196, with the host's values of this edge given. -/
def edge (p : Ports) (s : State) : Host.Outcome State Fault Refusal :=
  if p.rst then .next (resetBlock s)
  else match s.phase with
    | .idle => if p.cmdValid then exec (decode p.cmd) s else .next s
    | .loadKey | .loadFrame | .diffuse | .prime | .runA | .runB => sequencerStep s

/-- One rising edge: the host's values of this edge are taken from `inputs`, and the block steps (R196). -/
def step (s : State) : Host.Outcome State Fault Refusal := edge s.portsNow (dropSample s)

/-- `s` with the host presenting the command word of the low `nbits` bits of `w` at the next edge, in place of what it
would have driven there. A command is accepted only by an idle block, so a sequence in progress is given up
(log entry 10). -/
def State.withFetchWord (s : State) (nbits w : Nat) : State :=
  let s1 := { s with inputs := presentPorts (BitVec.ofNat 40 (w % 2 ^ nbits)) :: s.inputs.tail }
  match s.phase with
  | .idle => s1
  | .loadKey | .loadFrame | .diffuse | .prime | .runA | .runB => { s1 with phase := .idle, cnt := 0, chain := false }

end Sys2Proof.Machine
end

