-- ==== Sys2Proof/Safety.lean ====
section
/-! DEFINITION. The terms claims use: what a well-formed state of the block is, runs of several edges, what the host
does meanwhile, and the spec's procedures written as functions (42_loader.md R295, 43_keystream.md R322). -/

namespace Sys2Proof.Machine

/-- The last value `CNT` takes in a phase (10_state.md R141). -/
def Phase.lastCnt : Phase → Nat
  | .idle => 0
  | .loadKey => 63
  | .loadFrame => 21
  | .diffuse => 99
  | .prime => 0
  | .runA => 113
  | .runB => 113

/-- The phases of the loader, LOADKEY to PRIME (R140). -/
def Phase.isLoader : Phase → Bool
  | .loadKey | .loadFrame | .diffuse | .prime => true
  | .idle | .runA | .runB => false

/-- The phases of the keystream engine (R140). -/
def Phase.isRun : Phase → Bool
  | .runA | .runB => true
  | .idle | .loadKey | .loadFrame | .diffuse | .prime => false

/-- What holds of the sequencer and the status flags between any two edges of a block that was reset once. -/
structure State.Inv (s : State) : Prop where
  /-- `CNT` stays in its phase's range (R141). -/
  cnt_le : s.cnt.toNat ≤ s.phase.lastCnt
  /-- An idle block shows `CHAIN = 0` (44_host_control.md R351 corner (a)). -/
  idle_chain : s.phase = .idle → s.chain = false
  /-- The loader runs only with a key of eight bytes (42_loader.md R290, 43_keystream.md R323). -/
  loader_key : s.phase.isLoader = true → s.keycnt = 8 ∧ s.errKeylen = false
  /-- While the engine writes the streams they are not announced as valid (R153). -/
  run_invalid : s.phase.isRun = true → s.ksValid = false
  /-- A chained sequence is a `GENERATE`, whose key was good and which cleared `KS_VALID` (R323). -/
  chain_generate : s.chain = true → s.keycnt = 8 ∧ s.errKeylen = false ∧ s.ksValid = false
  /-- `CHAIN` is 1 in the phases LOADKEY to PRIME alone (R141), but for the reading of V-SEQ-1 (log entry 6). -/
  chain_loader : s.chain = true → s.chainHeld = false → s.phase.isLoader = true

/-- All four LFSRs hold a one somewhere. -/
def Cipher.AllNonzero (c : Cipher) : Prop := c.r1 ≠ 0 ∧ c.r2 ≠ 0 ∧ c.r3 ≠ 0 ∧ c.r4 ≠ 0

/-- The part of a loading sequence after its last frame edge, where the forced bits have been placed
(42_loader.md R298): DIFFUSE and PRIME, and with `chainHeld`, where `CHAIN` marks them, the streams of a `GENERATE`
(log entry 6). -/
def State.pastFrame (s : State) : Prop :=
  s.phase = .diffuse ∨ s.phase = .prime ∨ (s.chain = true ∧ s.phase.isRun = true)

/-- Runs of `n` edges, stopping at the first fault or refusal. -/
def runEdges : Nat → State → Host.Outcome State Fault Refusal
  | 0, s => .next s
  | n + 1, s =>
    match step s with
    | .next t => runEdges n t
    | .fault r => .fault r
    | .refused r => .refused r

/-- The host does not reset the block at any of the next `n` edges; it may present commands there. -/
def State.NoReset (s : State) (n : Nat) : Prop := ∀ p ∈ s.inputs.take n, p.rst = false

/-- At the coming edge the host presents the word `w`. -/
def State.Presents (s : State) (w : CmdWord) : Prop :=
  s.portsNow.rst = false ∧ s.portsNow.cmdValid = true ∧ s.portsNow.cmd = w

/-- The number of edges a command takes that is accepted with the given `KEYCNT` (70_reset_and_hazards.md R420). -/
def edgesOf (i : Instr) (keycnt : BitVec 4) : Nat :=
  match i with
  | .setup => if keycnt = 8 then 188 else 1
  | .run => 229
  | .generate => if keycnt = 8 then 416 else 1
  | _ => 1

/-- Where R420's timeline puts a `SETUP` or `GENERATE` after `k` edges, `k` from 1 to 187: phase and `CNT`. -/
def loaderAt (k : Nat) : Phase × Nat :=
  if k ≤ 64 then (.loadKey, k - 1)
  else if k ≤ 86 then (.loadFrame, k - 65)
  else if k ≤ 186 then (.diffuse, k - 87)
  else (.prime, 0)

/-- Where R420's timeline puts the keystream engine after its start and `k` edges, `k` from 0 to 227. -/
def engineAt (k : Nat) : Phase × Nat := if k < 114 then (.runA, k) else (.runB, k - 114)

/-- Where R420's timeline puts a multi-cycle command after `k` edges, the accepting edge counted, before its end. -/
def timelineAt (i : Instr) (k : Nat) : Phase × Nat :=
  match i with
  | .run => engineAt (k - 1)
  | _ => if k ≤ 187 then loaderAt k else engineAt (k - 188)

/-- The operand bits an opcode uses (30_encoding.md R193). -/
def usedOperandBits (op : Byte) : Word :=
  if op = 0x01 then 0x00000003
  else if op = 0x04 then 0x000000FF
  else if op = 0x05 then 0x003FFFFF
  else if op = 0x09 then 0x000000FF
  else 0

/-- The cipher state after `n` LOADKEY cycles of R295's first loop. -/
def afterKeyBits (P : Config.ClkTaps) (key : BitVec 64) (n : Nat) (c : Cipher) : Cipher :=
  (List.range n).foldl (fun c i => inject (clock P c true false) (key.getLsbD i)) c

/-- The cipher state after `n` LOADFRAME cycles of R295's second loop. -/
def afterFrameBits (P : Config.ClkTaps) (frame : BitVec 22) (n : Nat) (c : Cipher) : Cipher :=
  (List.range n).foldl (fun c i => inject (clock P c true (i == 21)) (frame.getLsbD i)) c

/-- `S_n`: the cipher state after `n` applications of `Clock(C, 0, 0)` (R322). -/
def clocked (P : Config.ClkTaps) (c : Cipher) : Nat → Cipher
  | 0 => c
  | n + 1 => clock P (clocked P c n) false false

/-- `(0, 0, 0, 0, DELAY0)`, where R295 starts. -/
def zeroCipher (delay0 : Bool) : Cipher := { r1 := 0, r2 := 0, r3 := 0, r4 := 0, delay := delay0 }

/-- The loader's state after LOADKEY. -/
def keyLoaded (P : Config.ClkTaps) (key : BitVec 64) (delay0 : Bool) : Cipher :=
  afterKeyBits P key 64 (zeroCipher delay0)

/-- The loader's state after LOADFRAME. -/
def frameLoaded (P : Config.ClkTaps) (key : BitVec 64) (frame : BitVec 22) (delay0 : Bool) : Cipher :=
  afterFrameBits P frame 22 (keyLoaded P key delay0)

/-- `SetupState(KEY, FRAME, DELAY0)` (R295). -/
def setupState (P : Config.Params) (key : BitVec 64) (frame : BitVec 22) (delay0 : Bool) : Cipher :=
  (outputBit P.r2Out (clocked P.clkTaps (frameLoaded P.clkTaps key frame delay0) 100)).2

/-- The bitwise sum of two cipher states. -/
def Cipher.xor (c d : Cipher) : Cipher :=
  { r1 := c.r1 ^^^ d.r1, r2 := c.r2 ^^^ d.r2, r3 := c.r3 ^^^ d.r3, r4 := c.r4 ^^^ d.r4, delay := c.delay ^^ d.delay }

end Sys2Proof.Machine
end

