-- ==== Sys2Proof/Certificates/Slice0/Obligations.lean ====
section
/-! DEFINITION. The statements for the provers. Each docstring names the rule of spec/ it formalises. -/

open Sys2Proof Sys2Proof.Machine

/-! ## Encoding -/

/-- Decoding the encoded word of a well-formed command gives it back (30_encoding.md R192, R193, R197). -/
def Obligations.DecodeOfEncodeIsTheCommand : Prop :=
  ∀ i : Instr, i.WellFormed → decode (encode i) = i

/-- The decoder on every opcode and operand (R197). -/
def Obligations.DecodeFollowsTheOpcodeMap : Prop :=
  ∀ d : Word,
    decode ((0x00 : Byte) ++ d) = .nop ∧
    decode ((0x01 : Byte) ++ d) = .clock (d.getLsbD 0) (d.getLsbD 1) ∧
    decode ((0x02 : Byte) ++ d) = .outbit ∧
    decode ((0x03 : Byte) ++ d) = .keyclr ∧
    decode ((0x04 : Byte) ++ d) = .keybyte (d.setWidth 8) ∧
    decode ((0x05 : Byte) ++ d) = .frame (d.setWidth 22) ∧
    decode ((0x06 : Byte) ++ d) = .setup ∧
    decode ((0x07 : Byte) ++ d) = .run ∧
    decode ((0x08 : Byte) ++ d) = .generate ∧
    decode ((0x09 : Byte) ++ d) = .read (d.setWidth 8) ∧
    decode ((0x0A : Byte) ++ d) = .clrerr ∧
    ∀ op : Byte, 0x0B ≤ op.toNat →
      (decode (op ++ d)).isReserved = true ∧ (decode (op ++ d)).opcode = op ∧ (decode (op ++ d)).WellFormed

/-- Two words with one opcode are the same command exactly when they agree in the operand bits the opcode uses
(R194). -/
def Obligations.UnusedOperandBitsAreIgnored : Prop :=
  ∀ (op : Byte) (d d' : Word),
    decode (op ++ d) = decode (op ++ d') ↔ d &&& usedOperandBits op = d' &&& usedOperandBits op

/-- Words written out from the encoding table decode to the commands they stand for (R192, R193, R199). -/
def Obligations.WrittenOutWordsDecode : Prop :=
  decode 0x0000000000 = .nop ∧
  decode 0x0100000003 = .clock true true ∧
  decode 0x0100000001 = .clock true false ∧
  decode 0x0100000002 = .clock false true ∧
  decode 0x02FFFFFFFF = .outbit ∧
  decode 0x04123456FC = .keybyte 0xFC ∧
  decode 0x05FFC00021 = .frame 0x21 ∧
  decode 0x0800000000 = .generate ∧
  decode 0x090000002E = .read 0x2E ∧
  decode 0x0B00000000 = .reserved0B ∧
  decode 0x0F00000000 = .reserved0C0F 0x0F ∧
  decode 0xFF00000000 = .reserved80FF 0xFF

/-! ## The cipher's functions -/

/-- `parity` is the number of set bits modulo 2, and `maj` is true iff at least two inputs are (00_scope.md R105). -/
def Obligations.ParityAndMajorityAreTheCounts : Prop :=
  (∀ (n : Nat) (v : BitVec n), parity v = true ↔ ((List.range n).countP fun i => v.getLsbD i) % 2 = 1) ∧
  (∀ a b c : Bool, maj a b c = ((a && b) || (a && c) || (b && c)))

/-- Advancing each register: bit 0 is the parity of the tapped bits, every other bit is the one below it, and with `L`
the forced bit is 1 (40_clock_controller.md R240; the tapped bits are those of R230). -/
def Obligations.AdvanceShiftsUpAndForcesItsBit : Prop :=
  (∀ (r : BitVec 19) (l : Bool),
    (advance1 r l).getLsbD 0 = parity (r &&& 0x072000) ∧
    parity (r &&& 0x072000) = (r.getLsbD 18 ^^ r.getLsbD 17 ^^ r.getLsbD 16 ^^ r.getLsbD 13) ∧
    (∀ i, 1 ≤ i → i < 19 → (advance1 r l).getLsbD i = if l = true ∧ i = 15 then true else r.getLsbD (i - 1)) ∧
    ∀ i, 19 ≤ i → (advance1 r l).getLsbD i = false) ∧
  (∀ (r : BitVec 22) (l : Bool),
    (advance2 r l).getLsbD 0 = parity (r &&& 0x300000) ∧
    parity (r &&& 0x300000) = (r.getLsbD 21 ^^ r.getLsbD 20) ∧
    (∀ i, 1 ≤ i → i < 22 → (advance2 r l).getLsbD i = if l = true ∧ i = 16 then true else r.getLsbD (i - 1)) ∧
    ∀ i, 22 ≤ i → (advance2 r l).getLsbD i = false) ∧
  (∀ (r : BitVec 23) (l : Bool),
    (advance3 r l).getLsbD 0 = parity (r &&& 0x700080) ∧
    parity (r &&& 0x700080) = (r.getLsbD 22 ^^ r.getLsbD 21 ^^ r.getLsbD 20 ^^ r.getLsbD 7) ∧
    (∀ i, 1 ≤ i → i < 23 → (advance3 r l).getLsbD i = if l = true ∧ i = 18 then true else r.getLsbD (i - 1)) ∧
    ∀ i, 23 ≤ i → (advance3 r l).getLsbD i = false) ∧
  (∀ (r : BitVec 17) (l : Bool),
    (advance4 r l).getLsbD 0 = parity (r &&& 0x010800) ∧
    parity (r &&& 0x010800) = (r.getLsbD 16 ^^ r.getLsbD 11) ∧
    (∀ i, 1 ≤ i → i < 17 → (advance4 r l).getLsbD i = if l = true ∧ i = 10 then true else r.getLsbD (i - 1)) ∧
    ∀ i, 17 ≤ i → (advance4 r l).getLsbD i = false)

/-- Which registers advance: `R4` always, `Rk` iff `F = 1` or its control bit agrees with the majority; a register that
does not advance keeps its value, with `L = 1` too (R234, R235). -/
def Obligations.ClockAdvancesTheAgreeingRegisters : Prop :=
  ∀ (P : Config.ClkTaps) (c : Cipher) (f l : Bool),
    (clock P c f l).r4 = advance4 c.r4 l ∧
    (clock P c f l).r1 =
      (if f = true ∨ c.r4.getLsbD P.t1 = maj (c.r4.getLsbD P.t1) (c.r4.getLsbD P.t2) (c.r4.getLsbD P.t3)
        then advance1 c.r1 l else c.r1) ∧
    (clock P c f l).r2 =
      (if f = true ∨ c.r4.getLsbD P.t2 = maj (c.r4.getLsbD P.t1) (c.r4.getLsbD P.t2) (c.r4.getLsbD P.t3)
        then advance2 c.r2 l else c.r2) ∧
    (clock P c f l).r3 =
      (if f = true ∨ c.r4.getLsbD P.t3 = maj (c.r4.getLsbD P.t1) (c.r4.getLsbD P.t2) (c.r4.getLsbD P.t3)
        then advance3 c.r3 l else c.r3)

/-- How many registers advance (R238): with `F = 0` two or three of `R1`-`R3` and `R4`, all three iff the control bits
are equal; with `F = 1` all four. -/
def Obligations.ClockMovesThreeOrFourRegisters : Prop :=
  ∀ (P : Config.ClkTaps) (c : Cipher) (l : Bool),
    (∃ a1 a2 a3 : Bool,
      clock P c false l =
        { r1 := if a1 then advance1 c.r1 l else c.r1, r2 := if a2 then advance2 c.r2 l else c.r2,
          r3 := if a3 then advance3 c.r3 l else c.r3, r4 := advance4 c.r4 l, delay := c.delay } ∧
      (a1.toNat + a2.toNat + a3.toNat = 2 ∨ a1.toNat + a2.toNat + a3.toNat = 3) ∧
      (a1.toNat + a2.toNat + a3.toNat = 3 ↔
        c.r4.getLsbD P.t1 = c.r4.getLsbD P.t2 ∧ c.r4.getLsbD P.t2 = c.r4.getLsbD P.t3)) ∧
    clock P c true l =
      { r1 := advance1 c.r1 l, r2 := advance2 c.r2 l, r3 := advance3 c.r3 l, r4 := advance4 c.r4 l, delay := c.delay }

/-- With `L = 0` the all-zero registers are a fixed point, for both values of `F` (R239). -/
def Obligations.ClockKeepsTheZeroState : Prop :=
  ∀ (P : Config.ClkTaps) (delay f : Bool), clock P (zeroCipher delay) f false = zeroCipher delay

/-- No application of the clock controller turns a register that holds a one into zero, for every `F`, `L` and
`P_CLK_TAPS`: the top bit of every register is tapped (from R230, R232, R236). -/
def Obligations.ClockKeepsNonzeroRegistersNonzero : Prop :=
  ∀ (P : Config.ClkTaps) (c : Cipher) (f l : Bool),
    (c.r1 ≠ 0 → (clock P c f l).r1 ≠ 0) ∧ (c.r2 ≠ 0 → (clock P c f l).r2 ≠ 0) ∧
    (c.r3 ≠ 0 → (clock P c f l).r3 ≠ 0) ∧ (c.r4 ≠ 0 → (clock P c f l).r4 ≠ 0)

/-- A load cycle with `L = 0` is linear in the state and the injected bit together (from R232, R236, R282, R283). -/
def Obligations.LoadCycleIsLinear : Prop :=
  ∀ (P : Config.ClkTaps) (c d : Cipher) (a b : Bool),
    loadCycle P (c.xor d) false (a ^^ b) = (loadCycle P c false a).xor (loadCycle P d false b)

/-- The combiner (41_output_generator.md R260, R261, R262), written out, and that it reads neither `R4` nor
`DELAY`. -/
def Obligations.CombineIsTopXorThreeMajorities : Prop :=
  ∀ (P : Config.R2Out) (c : Cipher),
    combine P c =
      (c.r1.getLsbD 18 ^^ c.r2.getLsbD 21 ^^ c.r3.getLsbD 22 ^^
        maj (c.r1.getLsbD 15) (!c.r1.getLsbD 14) (c.r1.getLsbD 12) ^^
        maj (!c.r2.getLsbD P.a) (c.r2.getLsbD P.b) (c.r2.getLsbD P.c) ^^
        maj (c.r3.getLsbD 18) (c.r3.getLsbD 16) (!c.r3.getLsbD 13)) ∧
    ∀ (r4 : BitVec 17) (delay : Bool), combine P { c with r4 := r4, delay := delay } = combine P c

/-! ## The commands -/

/-- `NOP` (44_host_control.md R350). -/
def Obligations.NopChangesNothing : Prop := ∀ s : State, exec .nop s = .next s

/-- `CLOCK F, L` bit by bit, and its frame (40_clock_controller.md R237 with R232, R233, R234, R235). -/
def Obligations.ClockCommandBitByBit : Prop :=
  ∀ (s : State) (f l c1 c2 c3 m : Bool),
    c1 = s.cipher.r4.getLsbD s.params.clkTaps.t1 →
    c2 = s.cipher.r4.getLsbD s.params.clkTaps.t2 →
    c3 = s.cipher.r4.getLsbD s.params.clkTaps.t3 →
    m = ((c1 && c2) || (c1 && c3) || (c2 && c3)) →
    ∃ t, exec (.clock f l) s = .next t ∧ t = { s with cipher := t.cipher } ∧ t.cipher.delay = s.cipher.delay ∧
      (∀ i, i < 19 → t.cipher.r1.getLsbD i =
        if f = true ∨ c1 = m then
          if l = true ∧ i = 15 then true
          else if i = 0 then s.cipher.r1.getLsbD 18 ^^ s.cipher.r1.getLsbD 17 ^^ s.cipher.r1.getLsbD 16 ^^
            s.cipher.r1.getLsbD 13
          else s.cipher.r1.getLsbD (i - 1)
        else s.cipher.r1.getLsbD i) ∧
      (∀ i, i < 22 → t.cipher.r2.getLsbD i =
        if f = true ∨ c2 = m then
          if l = true ∧ i = 16 then true
          else if i = 0 then s.cipher.r2.getLsbD 21 ^^ s.cipher.r2.getLsbD 20
          else s.cipher.r2.getLsbD (i - 1)
        else s.cipher.r2.getLsbD i) ∧
      (∀ i, i < 23 → t.cipher.r3.getLsbD i =
        if f = true ∨ c3 = m then
          if l = true ∧ i = 18 then true
          else if i = 0 then s.cipher.r3.getLsbD 22 ^^ s.cipher.r3.getLsbD 21 ^^ s.cipher.r3.getLsbD 20 ^^
            s.cipher.r3.getLsbD 7
          else s.cipher.r3.getLsbD (i - 1)
        else s.cipher.r3.getLsbD i) ∧
      (∀ i, i < 17 → t.cipher.r4.getLsbD i =
        if l = true ∧ i = 10 then true
        else if i = 0 then s.cipher.r4.getLsbD 16 ^^ s.cipher.r4.getLsbD 11
        else s.cipher.r4.getLsbD (i - 1))

/-- `OUTBIT` (41_output_generator.md R265): the old `DELAY` goes to `RDATA[0]`, and `DELAY` takes the combiner's bit. -/
def Obligations.OutbitReturnsTheOldDelay : Prop :=
  ∀ s : State, exec .outbit s = .next { s with
    cipher := { s.cipher with delay := combine s.params.r2Out s.cipher }
    rdata := if s.cipher.delay then 1 else 0 }

/-- The returned bit is one extraction late (R263, R264): an `OUTBIT` returns what `Combine` was at the previous one,
whatever the registers became in between, and a second `OUTBIT` in a row leaves the cipher state as it is. -/
def Obligations.OutbitIsOneExtractionLate : Prop :=
  ∀ s : State, ∃ t, exec .outbit s = .next t ∧
    (∀ u : State, u.cipher.delay = t.cipher.delay →
      ∃ v, exec .outbit u = .next v ∧ v.rdata = if combine s.params.r2Out s.cipher then 1 else 0) ∧
    ∃ v, exec .outbit t = .next v ∧ v.cipher = t.cipher

/-- `KEYCLR` (42_loader.md R284). -/
def Obligations.KeyclrStartsANewKey : Prop :=
  ∀ s : State, exec .keyclr s = .next { s with key := 0, keycnt := 0 }

/-- `KEYBYTE B` bit by bit, and its frame (R285). -/
def Obligations.KeybyteAppendsOneByte : Prop :=
  ∀ (s : State) (b : Byte), ∃ t, exec (.keybyte b) s = .next t ∧ t = { s with key := t.key, keycnt := t.keycnt } ∧
    t.keycnt.toNat = min (s.keycnt.toNat + 1) 15 ∧
    ∀ i, i < 64 → t.key.getLsbD i =
      if s.keycnt.toNat < 8 ∧ i / 8 = s.keycnt.toNat then b.getLsbD (i % 8) else s.key.getLsbD i

/-- `FRAME N` (R286), and the truncation of the operand to its low 22 bits (R297). -/
def Obligations.FrameStoresTheLow22Bits : Prop :=
  (∀ (s : State) (n : BitVec 22), exec (.frame n) s = .next { s with frame := n }) ∧
  (∀ (s : State) (d : Word), s.phase = .idle → s.Presents ((0x05 : Byte) ++ d) →
    step s = .next { s with frame := BitVec.ofNat 22 (d.toNat % 2 ^ 22), inputs := s.inputs.tail })

/-- `SETUP` with a key of eight bytes (R290). -/
def Obligations.SetupStartsTheLoader : Prop :=
  ∀ s : State, s.keycnt = 8 → exec .setup s = .next { s with
    cipher := { r1 := 0, r2 := 0, r3 := 0, r4 := 0, delay := s.cipher.delay }
    errKeylen := false, phase := .loadKey, cnt := 0, chain := false }

/-- `GENERATE` with a key of eight bytes (43_keystream.md R323). -/
def Obligations.GenerateStartsTheChainedLoader : Prop :=
  ∀ s : State, s.keycnt = 8 → exec .generate s = .next { s with
    cipher := { r1 := 0, r2 := 0, r3 := 0, r4 := 0, delay := s.cipher.delay }
    errKeylen := false, ksValid := false, phase := .loadKey, cnt := 0, chain := true }

/-- A rejected `SETUP` or `GENERATE` changes `ERR_KEYLEN` and nothing else (60_exceptions.md R370). -/
def Obligations.WrongKeyLengthOnlySetsItsFlag : Prop :=
  ∀ s : State, s.keycnt ≠ 8 →
    exec .setup s = .next { s with errKeylen := true } ∧ exec .generate s = .next { s with errKeylen := true }

/-- `RUN` (43_keystream.md R320): it checks nothing. -/
def Obligations.RunStartsTheEngine : Prop :=
  ∀ s : State, exec .run s = .next { s with ksValid := false, phase := .runA, cnt := 0, chain := false }

/-- `READ` of every selector (20_memory.md R161, 44_host_control.md R351). -/
def Obligations.ReadFollowsTheSelectorMap : Prop :=
  ∀ s : State,
    exec (.read 0x00) s = .next { s with rdata := s.cipher.r1.setWidth 32 } ∧
    exec (.read 0x01) s = .next { s with rdata := s.cipher.r2.setWidth 32 } ∧
    exec (.read 0x02) s = .next { s with rdata := s.cipher.r3.setWidth 32 } ∧
    exec (.read 0x03) s = .next { s with rdata := s.cipher.r4.setWidth 32 } ∧
    exec (.read 0x04) s = .next { s with rdata := if s.cipher.delay then 1 else 0 } ∧
    exec (.read 0x05) s = .next { s with rdata := s.frame.setWidth 32 } ∧
    exec (.read 0x06) s = .next { s with rdata := statusWord s } ∧
    (∀ j, j < 15 → exec (.read (BitVec.ofNat 8 (0x10 + j))) s =
      .next { s with rdata := (streamByte s.sa j).setWidth 32 }) ∧
    (∀ j, j < 15 → exec (.read (BitVec.ofNat 8 (0x20 + j))) s =
      .next { s with rdata := (streamByte s.sb j).setWidth 32 }) ∧
    ∀ sel : Byte,
      (0x07 ≤ sel.toNat ∧ sel.toNat ≤ 0x0F) ∨ sel.toNat = 0x1F ∨ 0x2F ≤ sel.toNat →
      exec (.read sel) s = .next { s with errCmd := true }

/-- `CLRERR` (44_host_control.md R352). -/
def Obligations.ClrerrClearsBothFlags : Prop :=
  ∀ s : State, exec .clrerr s = .next { s with errKeylen := false, errCmd := false }

/-- A reserved opcode sets `ERR_CMD` and changes nothing else (R353, 60_exceptions.md R371): the six rows of the opcode
table, and any accepted word with such an opcode. -/
def Obligations.ReservedOpcodesOnlySetErrCmd : Prop :=
  (∀ s : State, exec .reserved0B s = .next { s with errCmd := true }) ∧
  (∀ (s : State) (op : Byte),
    exec (.reserved0C0F op) s = .next { s with errCmd := true } ∧
    exec (.reserved101F op) s = .next { s with errCmd := true } ∧
    exec (.reserved203F op) s = .next { s with errCmd := true } ∧
    exec (.reserved407F op) s = .next { s with errCmd := true } ∧
    exec (.reserved80FF op) s = .next { s with errCmd := true }) ∧
  (∀ (s : State) (op : Byte) (d : Word), 0x0B ≤ op.toNat → s.phase = .idle → s.Presents (op ++ d) →
    step s = .next { s with errCmd := true, inputs := s.inputs.tail })

/-- Entering a key (R163, R200, R412): `keyclr` and then any number of `keybyte`s. Byte `j` lands at `KEY[8j+7:8j]`, the
ninth and later bytes are only counted, the count saturates at 15, and it is 8 for eight bytes alone. -/
def Obligations.KeyEntryStoresEightBytesAndCountsAll : Prop :=
  ∀ (s : State) (bs : List Byte) (rest : List Ports), s.phase = .idle →
    s.inputs = presentPorts (encode .keyclr) :: ((bs.map fun b => presentPorts (encode (.keybyte b))) ++ rest) →
    ∃ t, runEdges (bs.length + 1) s = .next t ∧
      t = { s with key := t.key, keycnt := t.keycnt, inputs := rest } ∧
      t.keycnt.toNat = min bs.length 15 ∧ (t.keycnt = 8 ↔ bs.length = 8) ∧
      ∀ i, i < 64 → t.key.getLsbD i = (bs[i / 8]?.getD 0).getLsbD (i % 8)

/-! ## Ports, edges and reset -/

/-- A step is one edge with the host's coming sample, which is taken off the list (log entry 1); of an idle block to
which a word is presented it runs the decoded command (30_encoding.md R191, R196). The last clause is no rule of the
spec: `withFetchWord`, the model's own tool, presents a word (log entry 10, DESIGN CHOICE). -/
def Obligations.StepRunsTheDecodedCommand : Prop :=
  (∀ s : State, step s = edge s.portsNow { s with inputs := s.inputs.tail }) ∧
  (∀ (s : State) (w : CmdWord), s.phase = .idle → s.Presents w →
    step s = exec (decode w) { s with inputs := s.inputs.tail }) ∧
  (∀ (s : State) (i : Instr), i.WellFormed → s.phase = .idle → s.Presents (encode i) →
    step s = exec i { s with inputs := s.inputs.tail }) ∧
  (∀ (s : State) (w : Nat), s.phase = .idle →
    step (s.withFetchWord 40 w) = exec (decode (BitVec.ofNat 40 w)) { s with inputs := s.inputs.tail })

/-- `cmd_ready`, and that a command is taken exactly at an edge with `cmd_valid` and `cmd_ready`: otherwise the block
steps as if none were presented, whatever stands on `cmd_op` and `cmd_data` (R191, R196). -/
def Obligations.CommandIsTakenExactlyWhenReady : Prop :=
  ∀ (s : State) (p : Ports),
    (s.cmdReady p.rst = true ↔ s.phase = .idle ∧ p.rst = false) ∧
    (p.cmdValid = true ∧ s.cmdReady p.rst = true → edge p s = exec (decode (p.cmdOp ++ p.cmdData)) s) ∧
    (¬(p.cmdValid = true ∧ s.cmdReady p.rst = true) →
      ∀ (v : Bool) (op : Byte) (d : Word), ¬(v = true ∧ s.cmdReady p.rst = true) →
        edge p s = edge { rst := p.rst, cmdValid := v, cmdOp := op, cmdData := d } s)

/-- An edge with `rst = 1`, from any state and with any command presented (70_reset_and_hazards.md R400). That the
parameters, the reading of `CHAIN` and the host's samples, which are no fields of the block, stay is the model's choice
(log entries 1, 3 and 6). -/
def Obligations.ResetEdgeGivesTheResetState : Prop :=
  ∀ (s : State) (p : Ports), p.rst = true → ∃ t, edge p s = .next t ∧
    t.cipher = { r1 := 0, r2 := 0, r3 := 0, r4 := 0, delay := false } ∧
    t.key = 0 ∧ t.keycnt = 0 ∧ t.frame = 0 ∧ t.sa = 0 ∧ t.sb = 0 ∧ t.rdata = 0 ∧
    t.errKeylen = false ∧ t.errCmd = false ∧ t.ksValid = false ∧ t.phase = .idle ∧ t.cnt = 0 ∧ t.chain = false ∧
    t.params = s.params ∧ t.chainHeld = s.chainHeld ∧ t.inputs = s.inputs ∧
    s.cmdReady p.rst = false ∧ statusWord t = 0

/-- What reset leaves (10_state.md R155) and the spec's default parameters (00_scope.md R102). That the parameters
stand in the state is the model's choice (log entry 3). -/
def Obligations.ResetStateHoldsTheStatedValues : Prop :=
  State.reset.cipher = { r1 := 0, r2 := 0, r3 := 0, r4 := 0, delay := false } ∧
  State.reset.key = 0 ∧ State.reset.keycnt = 0 ∧ State.reset.frame = 0 ∧ State.reset.sa = 0 ∧ State.reset.sb = 0 ∧
  State.reset.rdata = 0 ∧ State.reset.errKeylen = false ∧ State.reset.errCmd = false ∧
  State.reset.ksValid = false ∧ State.reset.phase = .idle ∧ State.reset.cnt = 0 ∧ State.reset.chain = false ∧
  State.reset.params.clkTaps = { t1 := 10, t2 := 3, t3 := 7 } ∧
  State.reset.params.r2Out = { a := 16, b := 14, c := 12 }

/-- An idle block with no command presented holds every field (60_exceptions.md R379). -/
def Obligations.IdleBlockHoldsItsState : Prop :=
  ∀ s : State, s.phase = .idle → s.portsNow.rst = false → s.portsNow.cmdValid = false →
    step s = .next { s with inputs := s.inputs.tail }

/-- The status word, field by field, with the codes of `PHASE` (10_state.md R150, R140), and the two output ports that
show it and `RDATA` (30_encoding.md R190). -/
def Obligations.StatusWordLayout : Prop :=
  (∀ s : State,
    (statusWord s).getLsbD 0 = decide (s.phase ≠ .idle) ∧
    (statusWord s).getLsbD 1 = s.errKeylen ∧
    (statusWord s).getLsbD 2 = s.errCmd ∧
    (statusWord s).getLsbD 3 = s.ksValid ∧
    (statusWord s).extractLsb' 4 4 = s.keycnt ∧
    (statusWord s).extractLsb' 8 3 = phaseCode s.phase ∧
    (statusWord s).getLsbD 11 = s.chain ∧
    (statusWord s).extractLsb' 12 7 = s.cnt ∧
    (statusWord s).extractLsb' 19 13 = 0) ∧
  phaseCode .idle = 0 ∧ phaseCode .loadKey = 1 ∧ phaseCode .loadFrame = 2 ∧ phaseCode .diffuse = 3 ∧
  phaseCode .prime = 4 ∧ phaseCode .runA = 5 ∧ phaseCode .runB = 6 ∧
  ∀ s : State, s.statusPort = statusWord s ∧ s.rdataPort = s.rdata

/-- The packing of a stream into 15 bytes, most significant bit first, the pad bits 0, and its round trip
(20_memory.md R162). -/
def Obligations.StreamBytesArePackedMsbFirst : Prop :=
  ∀ v : BitVec 114,
    (∀ j k, j < 15 → k < 8 →
      (streamByte v j).getLsbD (7 - k) = if 8 * j + k ≤ 113 then v.getLsbD (8 * j + k) else false) ∧
    (∀ i, i < 114 → v.getLsbD i = (streamByte v (i / 8)).getLsbD (7 - i % 8)) ∧
    ∀ w : BitVec 114, (∀ i, i < 114 → w.getLsbD i = (streamByte v (i / 8)).getLsbD (7 - i % 8)) →
      ∀ j, j < 15 → streamByte w j = streamByte v j

/-! ## The sequencer's edges -/

/-- A LOADKEY edge (42_loader.md R291, with R282 and R283), as the composition of the rule and bit by bit: every
register shifts, and bit 0 is the feedback parity XOR the key bit. -/
def Obligations.LoadKeyEdgeTakesOneKeyBit : Prop :=
  ∀ (s : State) (p : Ports), s.phase = .loadKey → s.cnt.toNat ≤ 63 → p.rst = false →
    ∃ t, edge p s = .next t ∧
      t = { s with
        cipher := inject (clock s.params.clkTaps s.cipher true false) (s.key.getLsbD s.cnt.toNat)
        phase := if s.cnt = 63 then .loadFrame else .loadKey
        cnt := if s.cnt = 63 then 0 else s.cnt + 1 } ∧
      t.cipher.delay = s.cipher.delay ∧
      (∀ i, i < 19 → t.cipher.r1.getLsbD i =
        if i = 0 then s.cipher.r1.getLsbD 18 ^^ s.cipher.r1.getLsbD 17 ^^ s.cipher.r1.getLsbD 16 ^^
          s.cipher.r1.getLsbD 13 ^^ s.key.getLsbD s.cnt.toNat
        else s.cipher.r1.getLsbD (i - 1)) ∧
      (∀ i, i < 22 → t.cipher.r2.getLsbD i =
        if i = 0 then s.cipher.r2.getLsbD 21 ^^ s.cipher.r2.getLsbD 20 ^^ s.key.getLsbD s.cnt.toNat
        else s.cipher.r2.getLsbD (i - 1)) ∧
      (∀ i, i < 23 → t.cipher.r3.getLsbD i =
        if i = 0 then s.cipher.r3.getLsbD 22 ^^ s.cipher.r3.getLsbD 21 ^^ s.cipher.r3.getLsbD 20 ^^
          s.cipher.r3.getLsbD 7 ^^ s.key.getLsbD s.cnt.toNat
        else s.cipher.r3.getLsbD (i - 1)) ∧
      (∀ i, i < 17 → t.cipher.r4.getLsbD i =
        if i = 0 then s.cipher.r4.getLsbD 16 ^^ s.cipher.r4.getLsbD 11 ^^ s.key.getLsbD s.cnt.toNat
        else s.cipher.r4.getLsbD (i - 1))

/-- A LOADFRAME edge (R292, with R282 and R283), as the composition of the rule and bit by bit: every register shifts,
bit 0 is the feedback parity XOR the frame bit, and the last edge sets the forced bits. -/
def Obligations.LoadFrameEdgeTakesOneFrameBit : Prop :=
  ∀ (s : State) (p : Ports), s.phase = .loadFrame → s.cnt.toNat ≤ 21 → p.rst = false →
    ∃ t, edge p s = .next t ∧
      t = { s with
        cipher := inject (clock s.params.clkTaps s.cipher true (decide (s.cnt = 21))) (s.frame.getLsbD s.cnt.toNat)
        phase := if s.cnt = 21 then .diffuse else .loadFrame
        cnt := if s.cnt = 21 then 0 else s.cnt + 1 } ∧
      t.cipher.delay = s.cipher.delay ∧
      (∀ i, i < 19 → t.cipher.r1.getLsbD i =
        if s.cnt = 21 ∧ i = 15 then true
        else if i = 0 then s.cipher.r1.getLsbD 18 ^^ s.cipher.r1.getLsbD 17 ^^ s.cipher.r1.getLsbD 16 ^^
          s.cipher.r1.getLsbD 13 ^^ s.frame.getLsbD s.cnt.toNat
        else s.cipher.r1.getLsbD (i - 1)) ∧
      (∀ i, i < 22 → t.cipher.r2.getLsbD i =
        if s.cnt = 21 ∧ i = 16 then true
        else if i = 0 then s.cipher.r2.getLsbD 21 ^^ s.cipher.r2.getLsbD 20 ^^ s.frame.getLsbD s.cnt.toNat
        else s.cipher.r2.getLsbD (i - 1)) ∧
      (∀ i, i < 23 → t.cipher.r3.getLsbD i =
        if s.cnt = 21 ∧ i = 18 then true
        else if i = 0 then s.cipher.r3.getLsbD 22 ^^ s.cipher.r3.getLsbD 21 ^^ s.cipher.r3.getLsbD 20 ^^
          s.cipher.r3.getLsbD 7 ^^ s.frame.getLsbD s.cnt.toNat
        else s.cipher.r3.getLsbD (i - 1)) ∧
      (∀ i, i < 17 → t.cipher.r4.getLsbD i =
        if s.cnt = 21 ∧ i = 10 then true
        else if i = 0 then s.cipher.r4.getLsbD 16 ^^ s.cipher.r4.getLsbD 11 ^^ s.frame.getLsbD s.cnt.toNat
        else s.cipher.r4.getLsbD (i - 1))

/-- A DIFFUSE edge (R293). -/
def Obligations.DiffuseEdgeClocksByMajority : Prop :=
  ∀ (s : State) (p : Ports), s.phase = .diffuse → s.cnt.toNat ≤ 99 → p.rst = false →
    edge p s = .next { s with
      cipher := clock s.params.clkTaps s.cipher false false
      phase := if s.cnt = 99 then .prime else .diffuse
      cnt := if s.cnt = 99 then 0 else s.cnt + 1 }

/-- The PRIME edge (R294), for both values of the free value `chainHeld`: `CHAIN` becomes 0, as 10_state.md R141 says, or
stays, as the vector V-SEQ-1 shows (log entry 6). -/
def Obligations.PrimeEdgeFillsTheDelay : Prop :=
  ∀ (s : State) (p : Ports), s.phase = .prime → p.rst = false →
    edge p s = .next { s with
      cipher := { s.cipher with delay := combine s.params.r2Out s.cipher }
      phase := if s.chain then .runA else .idle
      cnt := 0
      chain := s.chain && s.chainHeld }

/-- A RUNA or RUNB edge, with the stream written bit by bit (43_keystream.md R321). -/
def Obligations.EngineEdgeWritesOneStreamBit : Prop :=
  ∀ (s : State) (p : Ports), s.phase = .runA ∨ s.phase = .runB → s.cnt.toNat ≤ 113 → p.rst = false →
    ∃ t, edge p s = .next t ∧
      t = { s with
        cipher := { clock s.params.clkTaps s.cipher false false with
          delay := combine s.params.r2Out (clock s.params.clkTaps s.cipher false false) }
        sa := t.sa
        sb := t.sb
        phase := if s.cnt = 113 then (if s.phase = .runA then .runB else .idle) else s.phase
        cnt := if s.cnt = 113 then 0 else s.cnt + 1
        chain := if s.cnt = 113 ∧ s.phase = .runB then false else s.chain
        ksValid := if s.cnt = 113 ∧ s.phase = .runB then true else s.ksValid } ∧
      ∀ j, j < 114 →
        t.sa.getLsbD j = (if s.phase = .runA ∧ j = s.cnt.toNat then s.cipher.delay else s.sa.getLsbD j) ∧
        t.sb.getLsbD j = (if s.phase = .runB ∧ j = s.cnt.toNat then s.cipher.delay else s.sb.getLsbD j)

/-! ## Whole sequences -/

/-- An accepted `SETUP`, run to its end with any host that does not reset, leaves the state of R295's function, which
does not depend on the old `DELAY`. -/
def Obligations.SetupComputesTheLoaderFunction : Prop :=
  (∀ (s : State) (d : Word), s.phase = .idle → s.keycnt = 8 → s.Presents ((0x06 : Byte) ++ d) → s.NoReset 188 →
    runEdges 188 s = .next { s with
      cipher := setupState s.params s.key s.frame s.cipher.delay
      errKeylen := false, phase := .idle, cnt := 0, chain := false
      inputs := s.inputs.drop 188 }) ∧
  (∀ (P : Config.Params) (key : BitVec 64) (frame : BitVec 22) (d0 d1 : Bool),
    setupState P key frame d0 = setupState P key frame d1)

/-- A `RUN`, run to its end with any host that does not reset, leaves in `SA` and `SB` the windows of one sequence that
R322 names, and the last state of that sequence. -/
def Obligations.RunWritesConsecutiveWindows : Prop :=
  (∀ (s : State) (d : Word), s.phase = .idle → s.Presents ((0x07 : Byte) ++ d) → s.NoReset 229 →
    ∃ t, runEdges 229 s = .next t ∧
      t = { s with
        cipher := { clocked s.params.clkTaps s.cipher 228 with
          delay := combine s.params.r2Out (clocked s.params.clkTaps s.cipher 228) }
        sa := t.sa, sb := t.sb, ksValid := true, phase := .idle, cnt := 0, chain := false
        inputs := s.inputs.drop 229 } ∧
      t.sa.getLsbD 0 = s.cipher.delay ∧
      (∀ i, 1 ≤ i → i < 114 → t.sa.getLsbD i = combine s.params.r2Out (clocked s.params.clkTaps s.cipher i)) ∧
      (∀ i, i < 114 → t.sb.getLsbD i = combine s.params.r2Out (clocked s.params.clkTaps s.cipher (114 + i)))) ∧
  (∀ (P : Config.Params) (key : BitVec 64) (frame : BitVec 22) (d0 : Bool),
    (setupState P key frame d0).delay = combine P.r2Out (setupState P key frame d0))

/-- `GENERATE` leaves what `SETUP` followed by `RUN` leaves, 416 edges against 188 + 229 (R324). -/
def Obligations.GenerateEqualsSetupThenRun : Prop :=
  ∀ (s : State) (dg ds dr : Word) (hg hs hr : List Ports),
    s.phase = .idle → s.keycnt = 8 → hs.length = 187 →
    (∀ p ∈ hg, p.rst = false) → (∀ p ∈ hs, p.rst = false) → (∀ p ∈ hr, p.rst = false) →
    ∃ t u,
      runEdges 416 { s with inputs := presentPorts ((0x08 : Byte) ++ dg) :: hg } = .next t ∧
      runEdges (188 + 229) { s with
        inputs := presentPorts ((0x06 : Byte) ++ ds) :: (hs ++ presentPorts ((0x07 : Byte) ++ dr) :: hr) } = .next u ∧
      u = { t with inputs := u.inputs } ∧
      t.ksValid = true ∧ t.errKeylen = false ∧ t.phase = .idle

/-- The whole timeline of every command (70_reset_and_hazards.md R420): the phase and `CNT` after each edge before the
last, and an idle block after the last. -/
def Obligations.EveryCommandTakesItsStatedEdges : Prop :=
  ∀ (s : State) (w : CmdWord), s.phase = .idle → s.Presents w → s.NoReset (edgesOf (decode w) s.keycnt) →
    (∃ t, runEdges (edgesOf (decode w) s.keycnt) s = .next t ∧ t.phase = .idle) ∧
    ∀ k, 1 ≤ k → k < edgesOf (decode w) s.keycnt →
      ∃ u, runEdges k s = .next u ∧ u.phase = (timelineAt (decode w) k).1 ∧
        u.cnt.toNat = (timelineAt (decode w) k).2 ∧ u.phase ≠ .idle

/-- `CHAIN` through every command: 1 in LOADKEY to PRIME of a `GENERATE`, which are the states after edges 1 to 187
(10_state.md R141); in its RUNA and RUNB, after edges 188 to 415, the free value `chainHeld`, for both readings of the
spec (log entry 6); 0 everywhere else. -/
def Obligations.ChainMarksAGenerate : Prop :=
  ∀ (s : State) (w : CmdWord), s.Inv → s.phase = .idle → s.Presents w → s.NoReset (edgesOf (decode w) s.keycnt) →
    (∃ t, runEdges (edgesOf (decode w) s.keycnt) s = .next t ∧ t.chain = false) ∧
    ∀ k, 1 ≤ k → k < edgesOf (decode w) s.keycnt →
      ∃ u, runEdges k s = .next u ∧
        u.chain = (decide (decode w = .generate) && (decide (k ≤ 187) || s.chainHeld)) ∧
        (k ≤ 187 → decode w = .generate → u.phase.isLoader = true)

/-- The block never hangs (60_exceptions.md R391): every accepted command ends within 416 edges, and every busy state
that the invariant allows ends its sequence within 415. -/
def Obligations.BlockNeverHangs : Prop :=
  (∀ (s : State) (w : CmdWord), s.phase = .idle → s.Presents w → s.NoReset 416 →
    ∃ n t, 1 ≤ n ∧ n ≤ 416 ∧ runEdges n s = .next t ∧ t.phase = .idle) ∧
  (∀ s : State, s.Inv → s.NoReset 415 → ∃ n t, n ≤ 415 ∧ runEdges n s = .next t ∧ t.phase = .idle)

/-- `RUN` on all-zero registers with `DELAY = 0` gives two all-zero streams and keeps the zeros (43_keystream.md R320
corner (a)), for every value of both parameters. -/
def Obligations.RunOnTheZeroStateGivesZeroStreams : Prop :=
  ∀ (s : State) (d : Word), s.phase = .idle → s.cipher = zeroCipher false → s.Presents ((0x07 : Byte) ++ d) →
    s.NoReset 229 → ∃ t, runEdges 229 s = .next t ∧ t.sa = 0 ∧ t.sb = 0 ∧ t.cipher = zeroCipher false ∧
      t.ksValid = true

/-- The loader's state after its last frame bit (42_loader.md R298): the four forced bits, for every key and frame, and
exactly those for the all-zero key and frame 0; and the last LOADFRAME edge of the machine places them. -/
def Obligations.LastFrameBitPlacesTheForcedBits : Prop :=
  (∀ (P : Config.ClkTaps) (d0 : Bool), keyLoaded P 0 d0 = zeroCipher d0 ∧
    frameLoaded P 0 0 d0 = { r1 := 0x08000, r2 := 0x010000, r3 := 0x040000, r4 := 0x00400, delay := d0 }) ∧
  (∀ (P : Config.ClkTaps) (key : BitVec 64) (frame : BitVec 22) (d0 : Bool),
    (frameLoaded P key frame d0).r1.getLsbD 15 = true ∧ (frameLoaded P key frame d0).r2.getLsbD 16 = true ∧
    (frameLoaded P key frame d0).r3.getLsbD 18 = true ∧ (frameLoaded P key frame d0).r4.getLsbD 10 = true) ∧
  (∀ s : State, s.phase = .loadFrame → s.cnt = 21 → s.portsNow.rst = false →
    ∃ t, step s = .next t ∧ t.phase = .diffuse ∧ t.cipher.r1.getLsbD 15 = true ∧ t.cipher.r2.getLsbD 16 = true ∧
      t.cipher.r3.getLsbD 18 = true ∧ t.cipher.r4.getLsbD 10 = true)

/-- What the loader's result depends on (R296): the loaded registers on no parameter, the diffused ones not on
`P_R2_OUT`. -/
def Obligations.LoadedRegistersIgnoreTheParameters : Prop :=
  (∀ (P P' : Config.ClkTaps) (key : BitVec 64) (frame : BitVec 22) (d0 : Bool),
    keyLoaded P key d0 = keyLoaded P' key d0 ∧ frameLoaded P key frame d0 = frameLoaded P' key frame d0) ∧
  (∀ (taps : Config.ClkTaps) (o o' : Config.R2Out) (key : BitVec 64) (frame : BitVec 22) (d0 : Bool),
    setupState { clkTaps := taps, r2Out := o } key frame d0 =
      { setupState { clkTaps := taps, r2Out := o' } key frame d0 with
        delay := (setupState { clkTaps := taps, r2Out := o } key frame d0).delay })

/-- `ksbit` by hand is one engine cycle (30_encoding.md R200): `CLOCK 0, 0` then `OUTBIT` leave the cipher state a RUNA
or RUNB edge leaves, and return the bit it stores. -/
def Obligations.KsbitMatchesAnEngineCycle : Prop :=
  ∀ s : State, ∃ t u, exec (.clock false false) s = .next t ∧ exec .outbit t = .next u ∧
    ∀ e : State, e.cipher = s.cipher → e.params = s.params → e.phase = .runA ∨ e.phase = .runB →
      e.cnt.toNat ≤ 113 → e.portsNow.rst = false →
      ∃ v, step e = .next v ∧ v.cipher = u.cipher ∧
        (e.phase = .runA → v.sa.getLsbD e.cnt.toNat = u.rdata.getLsbD 0) ∧
        (e.phase = .runB → v.sb.getLsbD e.cnt.toNat = u.rdata.getLsbD 0)

/-- An `OUTBIT` on a primed state, such as a `SETUP` leaves, returns the bit the first RUNA edge stores and leaves the
cipher state as it is (41_output_generator.md R265 corner (b)). -/
def Obligations.OutbitAfterSetupReturnsTheFirstStreamBit : Prop :=
  ∀ s : State, s.cipher.delay = combine s.params.r2Out s.cipher → ∃ t, exec .outbit s = .next t ∧
    t.cipher = s.cipher ∧
    ∀ e : State, e.cipher = s.cipher → e.phase = .runA → e.cnt = 0 → e.portsNow.rst = false →
      ∃ v, step e = .next v ∧ v.sa.getLsbD 0 = t.rdata.getLsbD 0

/-! ## Invariants and whole-machine rules -/

/-- The invariant holds after reset. -/
def Obligations.InvariantHoldsAtReset : Prop := State.reset.Inv

/-- Every step keeps the invariant (10_state.md R141, R153, 42_loader.md R290, 43_keystream.md R323). -/
def Obligations.StepKeepsTheInvariant : Prop := ∀ s t : State, s.Inv → step s = .next t → t.Inv

/-- From a state of the invariant every edge answers a next state: no fault and no refusal. -/
def Obligations.InvariantStatesAlwaysStep : Prop := ∀ s : State, s.Inv → ∃ t, step s = .next t

/-- After the last frame bit of a load, through DIFFUSE and PRIME, every LFSR holds a one, and every step keeps it so
(from 42_loader.md R298 and the rules of file 40). With `chainHeld = true` this goes on through the streams of a
`GENERATE`; with `chainHeld = false`, the reading of 10_state.md R141, `CHAIN` does not mark those streams and the claim
ends at PRIME (log entry 6). -/
def Obligations.StepKeepsLoadedRegistersNonzero : Prop :=
  ∀ s t : State, s.Inv → (s.pastFrame → s.cipher.AllNonzero) → step s = .next t →
    (t.pastFrame → t.cipher.AllNonzero)

/-- Only LOADKEY edges read `KEY` (10_state.md R125, 60_exceptions.md R376): at every other edge, another key gives the
same next state but for `KEY` itself. -/
def Obligations.OnlyLoadKeyReadsTheKey : Prop :=
  ∀ (s t : State) (k : BitVec 64), s.phase ≠ .loadKey → step s = .next t →
    ∃ k', step { s with key := k } = .next { t with key := k' }

/-- Only `KEYCLR` and `KEYBYTE` write `KEY` and `KEYCNT`, and only `FRAME` writes `FRAME`, reset apart (R125, R126,
R127). -/
def Obligations.OnlyKeyAndFrameCommandsWriteThem : Prop :=
  ∀ s t : State, step s = .next t → s.portsNow.rst = false →
    (t.key ≠ s.key ∨ t.keycnt ≠ s.keycnt → s.phase = .idle ∧ s.portsNow.cmdValid = true ∧
      (s.portsNow.cmdOp = 0x03 ∨ s.portsNow.cmdOp = 0x04)) ∧
    (t.frame ≠ s.frame → s.phase = .idle ∧ s.portsNow.cmdValid = true ∧ s.portsNow.cmdOp = 0x05)

/-- Only RUNA edges write `SA` and only RUNB edges write `SB`, one bit each, at position `CNT`, reset apart (R128). -/
def Obligations.OnlyEngineEdgesWriteTheStreams : Prop :=
  ∀ s t : State, step s = .next t → s.portsNow.rst = false → ∀ j,
    (t.sa.getLsbD j ≠ s.sa.getLsbD j → s.phase = .runA ∧ j = s.cnt.toNat) ∧
    (t.sb.getLsbD j ≠ s.sb.getLsbD j → s.phase = .runB ∧ j = s.cnt.toNat)

/-- What writes `RDATA`, `DELAY` and the LFSRs, reset apart (R129, R123, R122). -/
def Obligations.OnlyNamedEventsWriteRdataAndCipher : Prop :=
  ∀ s t : State, step s = .next t → s.portsNow.rst = false →
    (t.rdata ≠ s.rdata → s.phase = .idle ∧ s.portsNow.cmdValid = true ∧
      (s.portsNow.cmdOp = 0x09 ∨ s.portsNow.cmdOp = 0x02)) ∧
    (t.cipher.delay ≠ s.cipher.delay →
      (s.phase = .idle ∧ s.portsNow.cmdValid = true ∧ s.portsNow.cmdOp = 0x02) ∨
      s.phase = .prime ∨ s.phase = .runA ∨ s.phase = .runB) ∧
    (t.cipher.r1 ≠ s.cipher.r1 ∨ t.cipher.r2 ≠ s.cipher.r2 ∨ t.cipher.r3 ≠ s.cipher.r3 ∨ t.cipher.r4 ≠ s.cipher.r4 →
      (s.phase = .idle ∧ s.portsNow.cmdValid = true ∧
        (s.portsNow.cmdOp = 0x01 ∨
          ((s.portsNow.cmdOp = 0x06 ∨ s.portsNow.cmdOp = 0x08) ∧ s.keycnt = 8 ∧
            t.cipher = { r1 := 0, r2 := 0, r3 := 0, r4 := 0, delay := s.cipher.delay }))) ∨
      s.phase = .loadKey ∨ s.phase = .loadFrame ∨ s.phase = .diffuse ∨ s.phase = .runA ∨ s.phase = .runB)

/-- The three flags after any edge, exactly (R151, R152, R153). -/
def Obligations.FlagsChangeExactlyAsStated : Prop :=
  ∀ (s t : State) (p : Ports), edge p s = .next t →
    (p.rst = true → t.errKeylen = false ∧ t.errCmd = false ∧ t.ksValid = false) ∧
    (p.rst = false →
      t.errKeylen =
        (if s.phase = .idle ∧ p.cmdValid = true then
          match decode (p.cmdOp ++ p.cmdData) with
          | .setup | .generate => decide (s.keycnt ≠ 8)
          | .clrerr => false
          | _ => s.errKeylen
        else s.errKeylen) ∧
      t.errCmd =
        (if s.phase = .idle ∧ p.cmdValid = true then
          match decode (p.cmdOp ++ p.cmdData) with
          | .clrerr => false
          | .read sel => if selRead s sel = none then true else s.errCmd
          | i => if i.isReserved then true else s.errCmd
        else s.errCmd) ∧
      t.ksValid =
        (if s.phase = .idle ∧ p.cmdValid = true then
          match decode (p.cmdOp ++ p.cmdData) with
          | .run => false
          | .generate => if s.keycnt = 8 then false else s.ksValid
          | _ => s.ksValid
        else if s.phase = .runB ∧ s.cnt = 113 then true
        else s.ksValid))

/-- No step writes the parameters or the reading of `CHAIN`, and every step takes one sample of the host (00_scope.md
R102; the form of all three is the model's choice, log entries 1, 3 and 6). -/
def Obligations.ParametersNeverChange : Prop :=
  ∀ s t : State, step s = .next t → t.params = s.params ∧ t.chainHeld = s.chainHeld ∧ t.inputs = s.inputs.tail
end

