-- ==== Sys2Proof/Laws/State.lean ====
section
/-! SUPPORT. What each named update does to each field of the state: one lemma per field per update. -/

namespace Sys2Proof.Machine

section

-- setting the cipher state

@[simp] theorem setCipher_cipher (c : Cipher) (s : State) : (setCipher c s).cipher = c := rfl
@[simp] theorem setCipher_key (c : Cipher) (s : State) : (setCipher c s).key = s.key := rfl
@[simp] theorem setCipher_keycnt (c : Cipher) (s : State) : (setCipher c s).keycnt = s.keycnt := rfl
@[simp] theorem setCipher_frame (c : Cipher) (s : State) : (setCipher c s).frame = s.frame := rfl
@[simp] theorem setCipher_sa (c : Cipher) (s : State) : (setCipher c s).sa = s.sa := rfl
@[simp] theorem setCipher_sb (c : Cipher) (s : State) : (setCipher c s).sb = s.sb := rfl
@[simp] theorem setCipher_rdata (c : Cipher) (s : State) : (setCipher c s).rdata = s.rdata := rfl
@[simp] theorem setCipher_errKeylen (c : Cipher) (s : State) : (setCipher c s).errKeylen = s.errKeylen := rfl
@[simp] theorem setCipher_errCmd (c : Cipher) (s : State) : (setCipher c s).errCmd = s.errCmd := rfl
@[simp] theorem setCipher_ksValid (c : Cipher) (s : State) : (setCipher c s).ksValid = s.ksValid := rfl
@[simp] theorem setCipher_phase (c : Cipher) (s : State) : (setCipher c s).phase = s.phase := rfl
@[simp] theorem setCipher_cnt (c : Cipher) (s : State) : (setCipher c s).cnt = s.cnt := rfl
@[simp] theorem setCipher_chain (c : Cipher) (s : State) : (setCipher c s).chain = s.chain := rfl
@[simp] theorem setCipher_params (c : Cipher) (s : State) : (setCipher c s).params = s.params := rfl
@[simp] theorem setCipher_chainHeld (c : Cipher) (s : State) : (setCipher c s).chainHeld = s.chainHeld := rfl
@[simp] theorem setCipher_inputs (c : Cipher) (s : State) : (setCipher c s).inputs = s.inputs := rfl

end

section

-- setting `RDATA`

@[simp] theorem setRdata_cipher (v : Word) (s : State) : (setRdata v s).cipher = s.cipher := rfl
@[simp] theorem setRdata_key (v : Word) (s : State) : (setRdata v s).key = s.key := rfl
@[simp] theorem setRdata_keycnt (v : Word) (s : State) : (setRdata v s).keycnt = s.keycnt := rfl
@[simp] theorem setRdata_frame (v : Word) (s : State) : (setRdata v s).frame = s.frame := rfl
@[simp] theorem setRdata_sa (v : Word) (s : State) : (setRdata v s).sa = s.sa := rfl
@[simp] theorem setRdata_sb (v : Word) (s : State) : (setRdata v s).sb = s.sb := rfl
@[simp] theorem setRdata_rdata (v : Word) (s : State) : (setRdata v s).rdata = v := rfl
@[simp] theorem setRdata_errKeylen (v : Word) (s : State) : (setRdata v s).errKeylen = s.errKeylen := rfl
@[simp] theorem setRdata_errCmd (v : Word) (s : State) : (setRdata v s).errCmd = s.errCmd := rfl
@[simp] theorem setRdata_ksValid (v : Word) (s : State) : (setRdata v s).ksValid = s.ksValid := rfl
@[simp] theorem setRdata_phase (v : Word) (s : State) : (setRdata v s).phase = s.phase := rfl
@[simp] theorem setRdata_cnt (v : Word) (s : State) : (setRdata v s).cnt = s.cnt := rfl
@[simp] theorem setRdata_chain (v : Word) (s : State) : (setRdata v s).chain = s.chain := rfl
@[simp] theorem setRdata_params (v : Word) (s : State) : (setRdata v s).params = s.params := rfl
@[simp] theorem setRdata_chainHeld (v : Word) (s : State) : (setRdata v s).chainHeld = s.chainHeld := rfl
@[simp] theorem setRdata_inputs (v : Word) (s : State) : (setRdata v s).inputs = s.inputs := rfl

end

section

-- clearing both error flags

@[simp] theorem clearErrors_cipher (s : State) : (clearErrors s).cipher = s.cipher := rfl
@[simp] theorem clearErrors_key (s : State) : (clearErrors s).key = s.key := rfl
@[simp] theorem clearErrors_keycnt (s : State) : (clearErrors s).keycnt = s.keycnt := rfl
@[simp] theorem clearErrors_frame (s : State) : (clearErrors s).frame = s.frame := rfl
@[simp] theorem clearErrors_sa (s : State) : (clearErrors s).sa = s.sa := rfl
@[simp] theorem clearErrors_sb (s : State) : (clearErrors s).sb = s.sb := rfl
@[simp] theorem clearErrors_rdata (s : State) : (clearErrors s).rdata = s.rdata := rfl
@[simp] theorem clearErrors_errKeylen (s : State) : (clearErrors s).errKeylen = false := rfl
@[simp] theorem clearErrors_errCmd (s : State) : (clearErrors s).errCmd = false := rfl
@[simp] theorem clearErrors_ksValid (s : State) : (clearErrors s).ksValid = s.ksValid := rfl
@[simp] theorem clearErrors_phase (s : State) : (clearErrors s).phase = s.phase := rfl
@[simp] theorem clearErrors_cnt (s : State) : (clearErrors s).cnt = s.cnt := rfl
@[simp] theorem clearErrors_chain (s : State) : (clearErrors s).chain = s.chain := rfl
@[simp] theorem clearErrors_params (s : State) : (clearErrors s).params = s.params := rfl
@[simp] theorem clearErrors_chainHeld (s : State) : (clearErrors s).chainHeld = s.chainHeld := rfl
@[simp] theorem clearErrors_inputs (s : State) : (clearErrors s).inputs = s.inputs := rfl

end

section

-- raising `KeyLen`

@[simp] theorem raise_keyLen_cipher (s : State) : (raiseError .keyLen s).cipher = s.cipher := rfl
@[simp] theorem raise_keyLen_key (s : State) : (raiseError .keyLen s).key = s.key := rfl
@[simp] theorem raise_keyLen_keycnt (s : State) : (raiseError .keyLen s).keycnt = s.keycnt := rfl
@[simp] theorem raise_keyLen_frame (s : State) : (raiseError .keyLen s).frame = s.frame := rfl
@[simp] theorem raise_keyLen_sa (s : State) : (raiseError .keyLen s).sa = s.sa := rfl
@[simp] theorem raise_keyLen_sb (s : State) : (raiseError .keyLen s).sb = s.sb := rfl
@[simp] theorem raise_keyLen_rdata (s : State) : (raiseError .keyLen s).rdata = s.rdata := rfl
@[simp] theorem raise_keyLen_errKeylen (s : State) : (raiseError .keyLen s).errKeylen = true := rfl
@[simp] theorem raise_keyLen_errCmd (s : State) : (raiseError .keyLen s).errCmd = s.errCmd := rfl
@[simp] theorem raise_keyLen_ksValid (s : State) : (raiseError .keyLen s).ksValid = s.ksValid := rfl
@[simp] theorem raise_keyLen_phase (s : State) : (raiseError .keyLen s).phase = s.phase := rfl
@[simp] theorem raise_keyLen_cnt (s : State) : (raiseError .keyLen s).cnt = s.cnt := rfl
@[simp] theorem raise_keyLen_chain (s : State) : (raiseError .keyLen s).chain = s.chain := rfl
@[simp] theorem raise_keyLen_params (s : State) : (raiseError .keyLen s).params = s.params := rfl
@[simp] theorem raise_keyLen_chainHeld (s : State) : (raiseError .keyLen s).chainHeld = s.chainHeld := rfl
@[simp] theorem raise_keyLen_inputs (s : State) : (raiseError .keyLen s).inputs = s.inputs := rfl

end

section

-- raising `BadCmd`

@[simp] theorem raise_badCmd_cipher (s : State) : (raiseError .badCmd s).cipher = s.cipher := rfl
@[simp] theorem raise_badCmd_key (s : State) : (raiseError .badCmd s).key = s.key := rfl
@[simp] theorem raise_badCmd_keycnt (s : State) : (raiseError .badCmd s).keycnt = s.keycnt := rfl
@[simp] theorem raise_badCmd_frame (s : State) : (raiseError .badCmd s).frame = s.frame := rfl
@[simp] theorem raise_badCmd_sa (s : State) : (raiseError .badCmd s).sa = s.sa := rfl
@[simp] theorem raise_badCmd_sb (s : State) : (raiseError .badCmd s).sb = s.sb := rfl
@[simp] theorem raise_badCmd_rdata (s : State) : (raiseError .badCmd s).rdata = s.rdata := rfl
@[simp] theorem raise_badCmd_errKeylen (s : State) : (raiseError .badCmd s).errKeylen = s.errKeylen := rfl
@[simp] theorem raise_badCmd_errCmd (s : State) : (raiseError .badCmd s).errCmd = true := rfl
@[simp] theorem raise_badCmd_ksValid (s : State) : (raiseError .badCmd s).ksValid = s.ksValid := rfl
@[simp] theorem raise_badCmd_phase (s : State) : (raiseError .badCmd s).phase = s.phase := rfl
@[simp] theorem raise_badCmd_cnt (s : State) : (raiseError .badCmd s).cnt = s.cnt := rfl
@[simp] theorem raise_badCmd_chain (s : State) : (raiseError .badCmd s).chain = s.chain := rfl
@[simp] theorem raise_badCmd_params (s : State) : (raiseError .badCmd s).params = s.params := rfl
@[simp] theorem raise_badCmd_chainHeld (s : State) : (raiseError .badCmd s).chainHeld = s.chainHeld := rfl
@[simp] theorem raise_badCmd_inputs (s : State) : (raiseError .badCmd s).inputs = s.inputs := rfl

end

section

-- a phase change

@[simp] theorem enterPhase_cipher (p : Phase) (s : State) : (enterPhase p s).cipher = s.cipher := rfl
@[simp] theorem enterPhase_key (p : Phase) (s : State) : (enterPhase p s).key = s.key := rfl
@[simp] theorem enterPhase_keycnt (p : Phase) (s : State) : (enterPhase p s).keycnt = s.keycnt := rfl
@[simp] theorem enterPhase_frame (p : Phase) (s : State) : (enterPhase p s).frame = s.frame := rfl
@[simp] theorem enterPhase_sa (p : Phase) (s : State) : (enterPhase p s).sa = s.sa := rfl
@[simp] theorem enterPhase_sb (p : Phase) (s : State) : (enterPhase p s).sb = s.sb := rfl
@[simp] theorem enterPhase_rdata (p : Phase) (s : State) : (enterPhase p s).rdata = s.rdata := rfl
@[simp] theorem enterPhase_errKeylen (p : Phase) (s : State) : (enterPhase p s).errKeylen = s.errKeylen := rfl
@[simp] theorem enterPhase_errCmd (p : Phase) (s : State) : (enterPhase p s).errCmd = s.errCmd := rfl
@[simp] theorem enterPhase_ksValid (p : Phase) (s : State) : (enterPhase p s).ksValid = s.ksValid := rfl
@[simp] theorem enterPhase_phase (p : Phase) (s : State) : (enterPhase p s).phase = p := rfl
@[simp] theorem enterPhase_cnt (p : Phase) (s : State) : (enterPhase p s).cnt = 0 := rfl
@[simp] theorem enterPhase_chain (p : Phase) (s : State) : (enterPhase p s).chain = s.chain := rfl
@[simp] theorem enterPhase_params (p : Phase) (s : State) : (enterPhase p s).params = s.params := rfl
@[simp] theorem enterPhase_chainHeld (p : Phase) (s : State) : (enterPhase p s).chainHeld = s.chainHeld := rfl
@[simp] theorem enterPhase_inputs (p : Phase) (s : State) : (enterPhase p s).inputs = s.inputs := rfl

end

section

-- the passing of one host sample

@[simp] theorem dropSample_cipher (s : State) : (dropSample s).cipher = s.cipher := rfl
@[simp] theorem dropSample_key (s : State) : (dropSample s).key = s.key := rfl
@[simp] theorem dropSample_keycnt (s : State) : (dropSample s).keycnt = s.keycnt := rfl
@[simp] theorem dropSample_frame (s : State) : (dropSample s).frame = s.frame := rfl
@[simp] theorem dropSample_sa (s : State) : (dropSample s).sa = s.sa := rfl
@[simp] theorem dropSample_sb (s : State) : (dropSample s).sb = s.sb := rfl
@[simp] theorem dropSample_rdata (s : State) : (dropSample s).rdata = s.rdata := rfl
@[simp] theorem dropSample_errKeylen (s : State) : (dropSample s).errKeylen = s.errKeylen := rfl
@[simp] theorem dropSample_errCmd (s : State) : (dropSample s).errCmd = s.errCmd := rfl
@[simp] theorem dropSample_ksValid (s : State) : (dropSample s).ksValid = s.ksValid := rfl
@[simp] theorem dropSample_phase (s : State) : (dropSample s).phase = s.phase := rfl
@[simp] theorem dropSample_cnt (s : State) : (dropSample s).cnt = s.cnt := rfl
@[simp] theorem dropSample_chain (s : State) : (dropSample s).chain = s.chain := rfl
@[simp] theorem dropSample_params (s : State) : (dropSample s).params = s.params := rfl
@[simp] theorem dropSample_chainHeld (s : State) : (dropSample s).chainHeld = s.chainHeld := rfl
@[simp] theorem dropSample_inputs (s : State) : (dropSample s).inputs = s.inputs.tail := rfl

end

section

-- the start of the loader

@[simp] theorem startLoader_cipher (b : Bool) (s : State) : (startLoader b s).cipher = zeroLfsrs s.cipher := rfl
@[simp] theorem startLoader_key (b : Bool) (s : State) : (startLoader b s).key = s.key := rfl
@[simp] theorem startLoader_keycnt (b : Bool) (s : State) : (startLoader b s).keycnt = s.keycnt := rfl
@[simp] theorem startLoader_frame (b : Bool) (s : State) : (startLoader b s).frame = s.frame := rfl
@[simp] theorem startLoader_sa (b : Bool) (s : State) : (startLoader b s).sa = s.sa := rfl
@[simp] theorem startLoader_sb (b : Bool) (s : State) : (startLoader b s).sb = s.sb := rfl
@[simp] theorem startLoader_rdata (b : Bool) (s : State) : (startLoader b s).rdata = s.rdata := rfl
@[simp] theorem startLoader_errKeylen (b : Bool) (s : State) : (startLoader b s).errKeylen = false := rfl
@[simp] theorem startLoader_errCmd (b : Bool) (s : State) : (startLoader b s).errCmd = s.errCmd := rfl
@[simp] theorem startLoader_ksValid (b : Bool) (s : State) : (startLoader b s).ksValid = s.ksValid := rfl
@[simp] theorem startLoader_phase (b : Bool) (s : State) : (startLoader b s).phase = .loadKey := rfl
@[simp] theorem startLoader_cnt (b : Bool) (s : State) : (startLoader b s).cnt = 0 := rfl
@[simp] theorem startLoader_chain (b : Bool) (s : State) : (startLoader b s).chain = b := rfl
@[simp] theorem startLoader_params (b : Bool) (s : State) : (startLoader b s).params = s.params := rfl
@[simp] theorem startLoader_chainHeld (b : Bool) (s : State) : (startLoader b s).chainHeld = s.chainHeld := rfl
@[simp] theorem startLoader_inputs (b : Bool) (s : State) : (startLoader b s).inputs = s.inputs := rfl

end

-- the reset edge

@[simp] theorem resetBlock_cipher (s : State) : (resetBlock s).cipher = State.reset.cipher := rfl
@[simp] theorem resetBlock_key (s : State) : (resetBlock s).key = State.reset.key := rfl
@[simp] theorem resetBlock_keycnt (s : State) : (resetBlock s).keycnt = State.reset.keycnt := rfl
@[simp] theorem resetBlock_frame (s : State) : (resetBlock s).frame = State.reset.frame := rfl
@[simp] theorem resetBlock_sa (s : State) : (resetBlock s).sa = State.reset.sa := rfl
@[simp] theorem resetBlock_sb (s : State) : (resetBlock s).sb = State.reset.sb := rfl
@[simp] theorem resetBlock_rdata (s : State) : (resetBlock s).rdata = State.reset.rdata := rfl
@[simp] theorem resetBlock_errKeylen (s : State) : (resetBlock s).errKeylen = State.reset.errKeylen := rfl
@[simp] theorem resetBlock_errCmd (s : State) : (resetBlock s).errCmd = State.reset.errCmd := rfl
@[simp] theorem resetBlock_ksValid (s : State) : (resetBlock s).ksValid = State.reset.ksValid := rfl
@[simp] theorem resetBlock_phase (s : State) : (resetBlock s).phase = State.reset.phase := rfl
@[simp] theorem resetBlock_cnt (s : State) : (resetBlock s).cnt = State.reset.cnt := rfl
@[simp] theorem resetBlock_chain (s : State) : (resetBlock s).chain = State.reset.chain := rfl
@[simp] theorem resetBlock_params (s : State) : (resetBlock s).params = s.params := rfl
@[simp] theorem resetBlock_chainHeld (s : State) : (resetBlock s).chainHeld = s.chainHeld := rfl
@[simp] theorem resetBlock_inputs (s : State) : (resetBlock s).inputs = s.inputs := rfl

-- the functions of the cipher, register by register

@[simp] theorem zeroLfsrs_r1 (c : Cipher) : (zeroLfsrs c).r1 = 0 := rfl
@[simp] theorem outputBit_r1 (P : Config.R2Out) (c : Cipher) : (outputBit P c).2.r1 = c.r1 := rfl
@[simp] theorem inject_r1 (c : Cipher) (b : Bool) :
    (inject c b).r1 = c.r1 ^^^ (BitVec.ofBool b).setWidth 19 := rfl
@[simp] theorem clock_r1 (P : Config.ClkTaps) (c : Cipher) (f l : Bool) :
    (clock P c f l).r1 = if f || ctrl1 P c.r4 == vote P c.r4 then advance1 c.r1 l else c.r1 := rfl
@[simp] theorem zeroLfsrs_r2 (c : Cipher) : (zeroLfsrs c).r2 = 0 := rfl
@[simp] theorem outputBit_r2 (P : Config.R2Out) (c : Cipher) : (outputBit P c).2.r2 = c.r2 := rfl
@[simp] theorem inject_r2 (c : Cipher) (b : Bool) :
    (inject c b).r2 = c.r2 ^^^ (BitVec.ofBool b).setWidth 22 := rfl
@[simp] theorem clock_r2 (P : Config.ClkTaps) (c : Cipher) (f l : Bool) :
    (clock P c f l).r2 = if f || ctrl2 P c.r4 == vote P c.r4 then advance2 c.r2 l else c.r2 := rfl
@[simp] theorem zeroLfsrs_r3 (c : Cipher) : (zeroLfsrs c).r3 = 0 := rfl
@[simp] theorem outputBit_r3 (P : Config.R2Out) (c : Cipher) : (outputBit P c).2.r3 = c.r3 := rfl
@[simp] theorem inject_r3 (c : Cipher) (b : Bool) :
    (inject c b).r3 = c.r3 ^^^ (BitVec.ofBool b).setWidth 23 := rfl
@[simp] theorem clock_r3 (P : Config.ClkTaps) (c : Cipher) (f l : Bool) :
    (clock P c f l).r3 = if f || ctrl3 P c.r4 == vote P c.r4 then advance3 c.r3 l else c.r3 := rfl
@[simp] theorem zeroLfsrs_r4 (c : Cipher) : (zeroLfsrs c).r4 = 0 := rfl
@[simp] theorem outputBit_r4 (P : Config.R2Out) (c : Cipher) : (outputBit P c).2.r4 = c.r4 := rfl
@[simp] theorem inject_r4 (c : Cipher) (b : Bool) :
    (inject c b).r4 = c.r4 ^^^ (BitVec.ofBool b).setWidth 17 := rfl
@[simp] theorem clock_r4 (P : Config.ClkTaps) (c : Cipher) (f l : Bool) :
    (clock P c f l).r4 = advance4 c.r4 l := rfl
@[simp] theorem zeroLfsrs_delay (c : Cipher) : (zeroLfsrs c).delay = c.delay := rfl
@[simp] theorem outputBit_delay (P : Config.R2Out) (c : Cipher) : (outputBit P c).2.delay = combine P c := rfl
@[simp] theorem outputBit_bit (P : Config.R2Out) (c : Cipher) : (outputBit P c).1 = c.delay := rfl
@[simp] theorem inject_delay (c : Cipher) (b : Bool) : (inject c b).delay = c.delay := rfl
@[simp] theorem clock_delay (P : Config.ClkTaps) (c : Cipher) (f l : Bool) : (clock P c f l).delay = c.delay := rfl

end Sys2Proof.Machine
end

