-- ==== Sys2Proof/Laws/Cipher.lean ====
section
/-! SUPPORT. Laws of the cipher's pure functions: what one bit of a result is, and what clocking keeps. -/

namespace Sys2Proof.Machine

/-- Majority as a Boolean polynomial. -/
theorem maj_eq (a b c : Bool) : maj a b c = ((a && b) || (a && c) || (b && c)) := by
  cases a <;> cases b <;> cases c <;> rfl

/-- Two of three bits always agree with their majority (40_clock_controller.md R238). -/
theorem two_agree_with_maj (a b c : Bool) :
    2 ≤ (a == maj a b c).toNat + (b == maj a b c).toNat + (c == maj a b c).toNat := by
  cases a <;> cases b <;> cases c <;> decide

theorem getLsbD_setWidth_ofBool {n : Nat} (b : Bool) (i : Nat) :
    ((BitVec.ofBool b).setWidth n).getLsbD i = (decide (i < n) && decide (i = 0) && b) := by
  rw [BitVec.getLsbD_setWidth, BitVec.getLsbD_ofBool]
  cases b <;> simp

theorem parityBelow_zero {n : Nat} (k : Nat) : parityBelow (0 : BitVec n) k = false := by
  induction k with
  | zero => rfl
  | succ k ih => rw [parityBelow, ih]; simp

@[simp] theorem parity_zero {n : Nat} : parity (0 : BitVec n) = false := parityBelow_zero n

theorem parityBelow_xor {n : Nat} (a b : BitVec n) (k : Nat) :
    parityBelow (a ^^^ b) k = (parityBelow a k ^^ parityBelow b k) := by
  induction k with
  | zero => rfl
  | succ k ih =>
    simp only [parityBelow, ih, BitVec.getLsbD_xor]
    cases parityBelow a k <;> cases parityBelow b k <;> cases a.getLsbD k <;> cases b.getLsbD k <;> rfl

/-- Parity is linear. -/
theorem parity_xor {n : Nat} (a b : BitVec n) : parity (a ^^^ b) = (parity a ^^ parity b) := parityBelow_xor a b n

/-- Every bit of `Advance_k(r, L)` (40_clock_controller.md R232, R240). -/
theorem advance_getLsbD {n : Nat} (t : BitVec n) (k : Nat) (r : BitVec n) (l : Bool) (i : Nat) (hi : i < n) :
    (advance t k r l).getLsbD i =
      ((l && decide (i = k)) || (if i = 0 then parity (r &&& t) else r.getLsbD (i - 1))) := by
  have forced : (BitVec.twoPow n k).getLsbD i = decide (i = k) := by
    rw [BitVec.getLsbD_twoPow]
    by_cases h : i = k
    · subst h; simp [hi]
    · simp [h, Ne.symm h]
  have shifted : ((r <<< 1) ||| (BitVec.ofBool (parity (r &&& t))).setWidth n).getLsbD i =
      if i = 0 then parity (r &&& t) else r.getLsbD (i - 1) := by
    rw [BitVec.getLsbD_or, BitVec.getLsbD_shiftLeft, getLsbD_setWidth_ofBool]
    rcases Nat.eq_zero_or_pos i with rfl | h0
    · simp [hi]
    · have h1 : i ≠ 0 := Nat.ne_of_gt h0
      have h2 : ¬i < 1 := by omega
      simp only [hi, h1, h2, decide_true, decide_false, Bool.not_false, Bool.true_and, Bool.and_false, Bool.false_and,
        Bool.or_false, if_false]
  unfold advance
  cases l
  · simp only [Bool.false_eq_true, if_false, Bool.false_and, Bool.false_or]; exact shifted
  · simp only [if_true, Bool.true_and]; rw [BitVec.getLsbD_or, forced, shifted, Bool.or_comm]

/-- Every bit of a register that advances and then takes an injected bit (42_loader.md R282, R283), for a forced bit above
bit 0. -/
theorem advance_inject_getLsbD {n : Nat} (t : BitVec n) (k : Nat) (r : BitVec n) (l b : Bool) (i : Nat) (hi : i < n)
    (hk : 0 < k) :
    (advance t k r l ^^^ (BitVec.ofBool b).setWidth n).getLsbD i =
      if l = true ∧ i = k then true else if i = 0 then parity (r &&& t) ^^ b else r.getLsbD (i - 1) := by
  rw [BitVec.getLsbD_xor, advance_getLsbD _ _ _ _ _ hi, getLsbD_setWidth_ofBool]
  by_cases h0 : i = 0
  · subst h0
    simp [Nat.ne_of_lt hk, hi]
  · by_cases hik : i = k
    · simp only [hik, decide_true, Nat.ne_of_gt hk, decide_false]
      cases l <;> simp
    · simp [h0, hik]

/-- The parity of the tapped bits of `R1` (00_scope.md R101). -/
theorem parity_tap1 (r : BitVec 19) :
    parity (r &&& tapMask1) = (r.getLsbD 18 ^^ r.getLsbD 17 ^^ r.getLsbD 16 ^^ r.getLsbD 13) := by
  simp [parity, parityBelow, tapMask1, Bool.xor_comm]

theorem parity_tap2 (r : BitVec 22) :
    parity (r &&& tapMask2) = (r.getLsbD 21 ^^ r.getLsbD 20) := by
  simp [parity, parityBelow, tapMask2, Bool.xor_comm]

theorem parity_tap3 (r : BitVec 23) :
    parity (r &&& tapMask3) = (r.getLsbD 22 ^^ r.getLsbD 21 ^^ r.getLsbD 20 ^^ r.getLsbD 7) := by
  simp [parity, parityBelow, tapMask3, Bool.xor_comm]

theorem parity_tap4 (r : BitVec 17) :
    parity (r &&& tapMask4) = (r.getLsbD 16 ^^ r.getLsbD 11) := by
  simp [parity, parityBelow, tapMask4, Bool.xor_comm]

/-- A register whose top bit is tapped cannot become zero by advancing: a set bit moves up, and the top bit comes
back through the parity when it is the only one. -/
theorem advance_ne_zero {n : Nat} (t : BitVec (n + 1)) (k : Nat) (r : BitVec (n + 1)) (l : Bool)
    (ht : t.getLsbD n = true) (hr : r ≠ 0) : advance t k r l ≠ 0 := by
  intro h
  have bit : ∀ i, i < n + 1 → (advance t k r l).getLsbD i = false := by intro i _; rw [h]; simp
  have low : ∀ i, i < n → r.getLsbD i = false := by
    intro i hi
    have := bit (i + 1) (by omega)
    rw [advance_getLsbD t k r l (i + 1) (by omega)] at this
    simp at this
    exact this.2
  have par : parity (r &&& t) = false := by
    have := bit 0 (by omega)
    rw [advance_getLsbD t k r l 0 (by omega)] at this
    simp at this
    exact this.2
  have below : ∀ m, m ≤ n → parityBelow (r &&& t) m = false := by
    intro m hm
    induction m with
    | zero => rfl
    | succ m ih => simp [parityBelow, ih (by omega), low m (by omega)]
  have top : r.getLsbD n = false := by
    have := par
    simp only [parity, parityBelow, below n (le_refl n), BitVec.getLsbD_and, ht] at this
    simpa using this
  apply hr
  apply BitVec.eq_of_getLsbD_eq
  intro i hi
  rcases Nat.lt_succ_iff_lt_or_eq.mp hi with h' | rfl
  · rw [low i h']; simp
  · rw [top]; simp

/-- One application of the clock controller keeps every nonzero register nonzero. -/
theorem clock_allNonzero (P : Config.ClkTaps) (c : Cipher) (f l : Bool)
    (h : c.r1 ≠ 0 ∧ c.r2 ≠ 0 ∧ c.r3 ≠ 0 ∧ c.r4 ≠ 0) :
    (clock P c f l).r1 ≠ 0 ∧ (clock P c f l).r2 ≠ 0 ∧ (clock P c f l).r3 ≠ 0 ∧ (clock P c f l).r4 ≠ 0 := by
  refine ⟨?_, ?_, ?_, advance_ne_zero _ _ _ _ (by decide) h.2.2.2⟩
  · rw [clock_r1]; split
    · exact advance_ne_zero _ _ _ _ (by decide) h.1
    · exact h.1
  · rw [clock_r2]; split
    · exact advance_ne_zero _ _ _ _ (by decide) h.2.1
    · exact h.2.1
  · rw [clock_r3]; split
    · exact advance_ne_zero _ _ _ _ (by decide) h.2.2.1
    · exact h.2.2.1

end Sys2Proof.Machine
end

