-- ==== Sys2Proof/Laws/Decode.lean ====
section
/-! SUPPORT. The fields of a command word `{op, data}` and the reserved rows of the decoder. -/

namespace Sys2Proof

@[simp] theorem opField_append (op : Byte) (d : Word) : opField (op ++ d) = op := by
  apply BitVec.eq_of_getLsbD_eq
  intro i hi
  simp only [opField, BitVec.getLsbD_extractLsb', BitVec.getLsbD_append]
  simp [hi]

@[simp] theorem dataField_append (op : Byte) (d : Word) : dataField (op ++ d) = d := by
  apply BitVec.eq_of_getLsbD_eq
  intro i hi
  simp only [dataField, BitVec.getLsbD_extractLsb', BitVec.getLsbD_append]
  simp [hi]

/-- A low field of the operand is the operand cut to the field's width. -/
theorem extractLsb'_zero (d : Word) (n : Nat) : d.extractLsb' 0 n = d.setWidth n := by
  apply BitVec.eq_of_getLsbD_eq
  intro i hi
  simp [hi]

/-- Every opcode from 0x0B up is decoded by the reserved rows (30_encoding.md R195, R197). -/
theorem decode_reserved (op : Byte) (d : Word) (h : 0x0B ≤ op.toNat) : decode (op ++ d) = decodeReserved op := by
  unfold decode
  rw [opField_append]
  simp only
  split <;> first | omega | rfl

end Sys2Proof
end

