-- ==== Sys2Proof/Laws/Ops.lean ====
section
/-! SUPPORT. One lemma per shared operation that says what it can do. -/

namespace Sys2Proof.Machine

/-- Writing bit `i` of a vector changes that bit alone. -/
theorem setBit_getLsbD {n : Nat} (v : BitVec n) (i : Nat) (b : Bool) (j : Nat) :
    (setBit v i b).getLsbD j = if j = i ∧ j < n then b else v.getLsbD j := by
  unfold setBit
  rw [BitVec.getLsbD_or, BitVec.getLsbD_and, BitVec.getLsbD_not, BitVec.getLsbD_twoPow, BitVec.getLsbD_shiftLeft,
    getLsbD_setWidth_ofBool]
  by_cases hj : j < n
  · by_cases hji : j = i
    · subst hji; simp [hj]; omega
    · have hij : ¬i = j := fun h => hji h.symm
      have : ¬j < i → j - i ≠ 0 := by omega
      by_cases h : j < i <;> simp_all
  · simp [hj, BitVec.getLsbD_of_ge _ _ (Nat.le_of_not_lt hj)]

/-- The shared step of a counted sequence: either the phase ends, or the count goes up (10_state.md R141). -/
theorem advanceCount_cases (last : Nat) (p : Phase) (s : State) :
    (s.cnt.toNat = last ∧ advanceCount last p s = enterPhase p s) ∨
      (s.cnt.toNat ≠ last ∧ advanceCount last p s = { s with cnt := s.cnt + 1 }) := by
  unfold advanceCount
  by_cases h : s.cnt.toNat = last
  · exact .inl ⟨h, if_pos h⟩
  · exact .inr ⟨h, if_neg h⟩

/-- `KEYCNT` after a `KEYBYTE` (42_loader.md R285). -/
theorem bumpKeycnt_toNat (k : BitVec 4) : (bumpKeycnt k).toNat = min (k.toNat + 1) 15 := by
  unfold bumpKeycnt
  rw [BitVec.toNat_ofNat]
  omega

/-- An error is recorded in its flag and nowhere else (60_exceptions.md R370, R371). -/
theorem raiseError_frame (e : ErrorCause) (s : State) :
    raiseError e s = { s with
      errKeylen := s.errKeylen || decide (e = .keyLen), errCmd := s.errCmd || decide (e = .badCmd) } := by
  cases e <;> simp [raiseError]

/-- Writing key byte `j` changes its eight bits alone (42_loader.md R285). -/
theorem setKeyByte_getLsbD (key : BitVec 64) (j : Nat) (b : Byte) (i : Nat) (hi : i < 64) :
    (setKeyByte key j b).getLsbD i = if i / 8 = j then b.getLsbD (i % 8) else key.getLsbD i := by
  have ones : ∀ m, (0xFF : BitVec 64).getLsbD m = decide (m < 8) := by
    intro m
    by_cases h : m < 64
    · revert m; decide
    · rw [BitVec.getLsbD_of_ge _ _ (by omega)]; simp; omega
  unfold setKeyByte
  rw [BitVec.getLsbD_or, BitVec.getLsbD_and, BitVec.getLsbD_not, BitVec.getLsbD_shiftLeft, BitVec.getLsbD_shiftLeft,
    ones, BitVec.getLsbD_setWidth]
  by_cases h1 : i / 8 = j
  · have h2 : ¬i < 8 * j := by omega
    have h3 : i - 8 * j = i % 8 := by omega
    have h4 : i % 8 < 8 := by omega
    simp [hi, h1, h2, h3, h4]; omega
  · by_cases h2 : i < 8 * j
    · simp [hi, h1, h2]
    · have h3 : ¬i - 8 * j < 8 := by omega
      simp [hi, h1, h2, h3, BitVec.getLsbD_of_ge b (i - 8 * j) (by omega)]

end Sys2Proof.Machine
end

