-- ==== Sys2Proof/Laws/Operands.lean ====
section
/-! SUPPORT. The read-selector space, value by value. -/

namespace Sys2Proof.Machine

/-- A selector that is neither a register nor a stream byte is reserved (20_memory.md R161). -/
theorem selRead_eq_none_iff (s : State) (sel : Byte) :
    selRead s sel = none ↔
      6 < sel.toNat ∧ ¬(0x10 ≤ sel.toNat ∧ sel.toNat ≤ 0x1E) ∧ ¬(0x20 ≤ sel.toNat ∧ sel.toNat ≤ 0x2E) := by
  unfold selRead
  simp only
  constructor
  · intro h
    repeat (split at h; · simp at h)
    omega
  · rintro ⟨h1, h2, h3⟩
    repeat rw [if_neg (by omega)]

/-- `READ` either loads `RDATA` with the selector's value or raises `BadCmd` (44_host_control.md R351). -/
theorem execRead_cases (sel : Byte) (s : State) :
    (∃ v, selRead s sel = some v ∧ execRead sel s = .next (setRdata v s)) ∨
      (selRead s sel = none ∧ execRead sel s = .next (raiseError .badCmd s)) := by
  unfold execRead
  cases selRead s sel with
  | none => exact .inr ⟨rfl, rfl⟩
  | some v => exact .inl ⟨v, rfl, rfl⟩

/-- Bit `7 - k` of packed byte `j` is stream bit `8j + k`, 0 past the end (20_memory.md R162). -/
theorem streamByte_getLsbD (v : BitVec 114) (j k : Nat) (hk : k < 8) :
    (streamByte v j).getLsbD (7 - k) = v.getLsbD (8 * j + k) := by
  unfold streamByte
  have : k = 0 ∨ k = 1 ∨ k = 2 ∨ k = 3 ∨ k = 4 ∨ k = 5 ∨ k = 6 ∨ k = 7 := by omega
  rcases this with rfl | rfl | rfl | rfl | rfl | rfl | rfl | rfl <;> simp only [BitVec.getLsbD_append] <;> simp

end Sys2Proof.Machine
end

