-- ==== Sys2Proof/Laws/Step.lean ====
section
/-! SUPPORT. What one edge can do (30_encoding.md R196), case by case. -/

namespace Sys2Proof.Machine

/-- An edge with `rst = 1` (70_reset_and_hazards.md R400). -/
theorem edge_reset (p : Ports) (s : State) (h : p.rst = true) : edge p s = .next (resetBlock s) := by
  simp [edge, h]

/-- An edge of an idle block with a command presented. -/
theorem edge_accept (p : Ports) (s : State) (h : p.rst = false) (hi : s.phase = .idle) (hv : p.cmdValid = true) :
    edge p s = exec (decode p.cmd) s := by
  simp [edge, h, hi, hv]

/-- An edge of an idle block with no command presented. -/
theorem edge_idle (p : Ports) (s : State) (h : p.rst = false) (hi : s.phase = .idle) (hv : p.cmdValid = false) :
    edge p s = .next s := by
  simp [edge, h, hi, hv]

/-- An edge of a busy block. -/
theorem edge_busy (p : Ports) (s : State) (h : p.rst = false) (hi : s.phase ≠ .idle) :
    edge p s = sequencerStep s := by
  unfold edge
  rw [if_neg (by simp [h])]
  cases hp : s.phase <;> simp_all

/-- The four kinds of edge. -/
theorem step_cases (s : State) :
    (s.portsNow.rst = true ∧ step s = .next (resetBlock (dropSample s))) ∨
    (s.portsNow.rst = false ∧ s.phase = .idle ∧ s.portsNow.cmdValid = true ∧
      step s = exec (decode s.portsNow.cmd) (dropSample s)) ∨
    (s.portsNow.rst = false ∧ s.phase = .idle ∧ s.portsNow.cmdValid = false ∧ step s = .next (dropSample s)) ∨
    (s.portsNow.rst = false ∧ s.phase ≠ .idle ∧ step s = sequencerStep (dropSample s)) := by
  unfold step
  cases hr : s.portsNow.rst
  · by_cases hi : s.phase = .idle
    · cases hv : s.portsNow.cmdValid
      · exact .inr (.inr (.inl ⟨rfl, hi, rfl, edge_idle _ _ hr hi hv⟩))
      · exact .inr (.inl ⟨rfl, hi, rfl, edge_accept _ _ hr hi hv⟩)
    · exact .inr (.inr (.inr ⟨rfl, hi, edge_busy _ _ hr hi⟩))
  · exact .inl ⟨rfl, edge_reset _ _ hr⟩

/-- The word a host presents through `presentPorts` is the word the block samples. -/
theorem presentPorts_cmd (w : CmdWord) : (presentPorts w).cmd = w := by
  apply BitVec.eq_of_getLsbD_eq
  intro i hi
  simp only [presentPorts, Ports.cmd, BitVec.getLsbD_append, BitVec.getLsbD_extractLsb']
  by_cases h : i < 32
  · simp [h]
  · have h8 : i - 32 < 8 := by omega
    have : 32 + (i - 32) = i := by omega
    simp [h, h8, this]

theorem runEdges_succ (n : Nat) (s t : State) (h : step s = .next t) : runEdges (n + 1) s = runEdges n t := by
  simp [runEdges, h]

/-- Runs compose. -/
theorem runEdges_add (m n : Nat) (s t : State) (h : runEdges m s = .next t) :
    runEdges (m + n) s = runEdges n t := by
  induction m generalizing s with
  | zero =>
    have h' : (Host.Outcome.next s : Host.Outcome State Fault Refusal) = .next t := h
    injection h' with h'
    simp [h']
  | succ m ih =>
    rw [Nat.succ_add]
    cases hs : step s with
    | next u =>
      rw [runEdges_succ _ _ _ hs] at h ⊢
      exact ih u h
    | fault r => simp [runEdges, hs] at h
    | refused r => simp [runEdges, hs] at h

theorem runEdges_one (s t : State) (h : step s = .next t) : runEdges 1 s = .next t := by
  simp [runEdges, h]

/-- A run extended by one edge at its end. -/
theorem runEdges_snoc {n : Nat} {s t u : State} (h : runEdges n s = .next t) (h' : step t = .next u) :
    runEdges (n + 1) s = .next u :=
  (runEdges_add n 1 s t h).trans (runEdges_one t u h')

theorem noReset_mono {s : State} {m n : Nat} (h : s.NoReset m) (hn : n ≤ m) : s.NoReset n :=
  fun p hp => h p (List.take_subset_take_left _ hn hp)

/-- The host's promise for `n + m` edges, seen `n` edges later. -/
theorem noReset_drop {s t : State} {m n : Nat} (h : s.NoReset (n + m)) (ht : t.inputs = s.inputs.drop n) :
    t.NoReset m := by
  intro p hp
  rw [ht] at hp
  apply h p
  have : (s.inputs.drop n).take m = (s.inputs.take (n + m)).drop n := by rw [List.drop_take]; congr 1; omega
  rw [this] at hp
  exact List.mem_of_mem_drop hp

/-- At each of the promised edges the sampled `rst` is 0, past the end of the list too. -/
theorem noReset_at {s : State} {m : Nat} (h : s.NoReset m) (n : Nat) (hn : n < m) :
    ((s.inputs.drop n).headD quietPorts).rst = false := by
  rw [List.headD_eq_head?_getD, List.head?_drop]
  cases hx : s.inputs[n]? with
  | none => rfl
  | some p =>
    apply h p
    rw [List.mem_take_iff_getElem]
    obtain ⟨hl, rfl⟩ := List.getElem?_eq_some_iff.mp hx
    exact ⟨n, by omega, rfl⟩

end Sys2Proof.Machine
end

