-- ==== Sys2Proof/Laws/PerInstr.lean ====
section
/-! SUPPORT. Lemmas about every command as syntax, one per constructor: the encoded word of a well-formed command lies
in the row spec/opcode_table.json gives it. -/

namespace Sys2Proof.Laws

/-- The `match` of a row of the opcode table. -/
def rowMatch : Instr → CmdWord
  | .nop => 0x0000000000
  | .clock _ _ => 0x0100000000
  | .outbit => 0x0200000000
  | .keyclr => 0x0300000000
  | .keybyte _ => 0x0400000000
  | .frame _ => 0x0500000000
  | .setup => 0x0600000000
  | .run => 0x0700000000
  | .generate => 0x0800000000
  | .read _ => 0x0900000000
  | .clrerr => 0x0A00000000
  | .reserved0B => 0x0B00000000
  | .reserved0C0F _ => 0x0C00000000
  | .reserved101F _ => 0x1000000000
  | .reserved203F _ => 0x2000000000
  | .reserved407F _ => 0x4000000000
  | .reserved80FF _ => 0x8000000000

/-- The `mask` of a row of the opcode table. -/
def rowMask : Instr → CmdWord
  | .nop | .clock _ _ | .outbit | .keyclr | .keybyte _ | .frame _ => 0xFF00000000
  | .setup | .run | .generate | .read _ | .clrerr => 0xFF00000000
  | .reserved0B => 0xFF00000000
  | .reserved0C0F _ => 0xFC00000000
  | .reserved101F _ => 0xF000000000
  | .reserved203F _ => 0xE000000000
  | .reserved407F _ => 0xC000000000
  | .reserved80FF _ => 0x8000000000

/-- The high byte alone decides a mask of the high byte. -/
theorem append_and_high (op : Byte) (d : Word) (m : Byte) :
    (op ++ d : BitVec 40) &&& (m ++ (0 : Word)) = (op &&& m) ++ (0 : Word) := by
  apply BitVec.eq_of_getLsbD_eq
  intro i hi
  simp only [BitVec.getLsbD_and, BitVec.getLsbD_append]
  split <;> simp

namespace TableRow

/-- The encoded word of a well-formed command lies in its row of the opcode table. -/
def Statement (i : Instr) : Prop := i.WellFormed → encode i &&& rowMask i = rowMatch i

/-- A row that fixes the opcode bits under `m`. -/
theorem of_opcode (i : Instr) (m : Byte) (hmask : rowMask i = m ++ (0 : Word))
    (hmatch : (i.opcode &&& m) ++ (0 : Word) = rowMatch i) : Statement i := by
  intro _
  rw [hmask, ← hmatch]
  exact append_and_high i.opcode (encodeData i) m

theorem nop : Statement .nop := of_opcode _ 0xFF rfl (by simp only [Instr.opcode, rowMatch]; decide)
theorem clock (f l : Bool) : Statement (.clock f l) := of_opcode _ 0xFF rfl (by simp only [Instr.opcode, rowMatch]; decide)
theorem outbit : Statement .outbit := of_opcode _ 0xFF rfl (by simp only [Instr.opcode, rowMatch]; decide)
theorem keyclr : Statement .keyclr := of_opcode _ 0xFF rfl (by simp only [Instr.opcode, rowMatch]; decide)
theorem keybyte (b : Byte) : Statement (.keybyte b) := of_opcode _ 0xFF rfl (by simp only [Instr.opcode, rowMatch]; decide)
theorem frame (n : BitVec 22) : Statement (.frame n) := of_opcode _ 0xFF rfl (by simp only [Instr.opcode, rowMatch]; decide)
theorem setup : Statement .setup := of_opcode _ 0xFF rfl (by simp only [Instr.opcode, rowMatch]; decide)
theorem run : Statement .run := of_opcode _ 0xFF rfl (by simp only [Instr.opcode, rowMatch]; decide)
theorem generate : Statement .generate := of_opcode _ 0xFF rfl (by simp only [Instr.opcode, rowMatch]; decide)
theorem read (sel : Byte) : Statement (.read sel) := of_opcode _ 0xFF rfl (by simp only [Instr.opcode, rowMatch]; decide)
theorem clrerr : Statement .clrerr := of_opcode _ 0xFF rfl (by simp only [Instr.opcode, rowMatch]; decide)
theorem reserved0B : Statement .reserved0B := of_opcode _ 0xFF rfl (by simp only [Instr.opcode, rowMatch]; decide)

theorem high_bits_0C0F : ∀ op : Byte, opcodeIn 0x0C 0x0F op = true → op &&& 0xFC = 0x0C := by decide
theorem high_bits_101F : ∀ op : Byte, opcodeIn 0x10 0x1F op = true → op &&& 0xF0 = 0x10 := by decide
theorem high_bits_203F : ∀ op : Byte, opcodeIn 0x20 0x3F op = true → op &&& 0xE0 = 0x20 := by decide
theorem high_bits_407F : ∀ op : Byte, opcodeIn 0x40 0x7F op = true → op &&& 0xC0 = 0x40 := by decide
theorem high_bits_80FF : ∀ op : Byte, opcodeIn 0x80 0xFF op = true → op &&& 0x80 = 0x80 := by decide

theorem reserved0C0F (op : Byte) : Statement (.reserved0C0F op) := fun h =>
  of_opcode _ 0xFC rfl (congrArg (· ++ (0 : Word)) (high_bits_0C0F op h)) h
theorem reserved101F (op : Byte) : Statement (.reserved101F op) := fun h =>
  of_opcode _ 0xF0 rfl (congrArg (· ++ (0 : Word)) (high_bits_101F op h)) h
theorem reserved203F (op : Byte) : Statement (.reserved203F op) := fun h =>
  of_opcode _ 0xE0 rfl (congrArg (· ++ (0 : Word)) (high_bits_203F op h)) h
theorem reserved407F (op : Byte) : Statement (.reserved407F op) := fun h =>
  of_opcode _ 0xC0 rfl (congrArg (· ++ (0 : Word)) (high_bits_407F op h)) h
theorem reserved80FF (op : Byte) : Statement (.reserved80FF op) := fun h =>
  of_opcode _ 0x80 rfl (congrArg (· ++ (0 : Word)) (high_bits_80FF op h)) h

end TableRow

end Sys2Proof.Laws
end

