-- ==== Sys2Proof/Laws/Sequencer.lean ====
section
/-! SUPPORT. Each sequencer edge, before the last of its phase and at the last (42_loader.md R291-R294, 43_keystream.md
R321). -/

namespace Sys2Proof.Machine

theorem loadKeyEdge_mid (s : State) (h : s.cnt.toNat < 63) : loadKeyEdge s = .next { s with
    cipher := loadCycle s.params.clkTaps s.cipher false (s.key.getLsbD s.cnt.toNat), cnt := s.cnt + 1 } := by
  simp [loadKeyEdge, advanceCount, Nat.le_of_lt h, Nat.ne_of_lt h, setCipher]

theorem loadKeyEdge_last (s : State) (h : s.cnt.toNat = 63) : loadKeyEdge s = .next { s with
    cipher := loadCycle s.params.clkTaps s.cipher false (s.key.getLsbD 63), phase := .loadFrame, cnt := 0 } := by
  simp [loadKeyEdge, advanceCount, h, setCipher, enterPhase]

theorem loadFrameEdge_mid (s : State) (h : s.cnt.toNat < 21) : loadFrameEdge s = .next { s with
    cipher := loadCycle s.params.clkTaps s.cipher false (s.frame.getLsbD s.cnt.toNat), cnt := s.cnt + 1 } := by
  have last : (s.cnt.toNat == 21) = false := by simp; omega
  simp [loadFrameEdge, advanceCount, Nat.le_of_lt h, Nat.ne_of_lt h, setCipher, last]

theorem loadFrameEdge_last (s : State) (h : s.cnt.toNat = 21) : loadFrameEdge s = .next { s with
    cipher := loadCycle s.params.clkTaps s.cipher true (s.frame.getLsbD 21), phase := .diffuse, cnt := 0 } := by
  simp [loadFrameEdge, advanceCount, h, setCipher, enterPhase]

theorem diffuseEdge_mid (s : State) (h : s.cnt.toNat < 99) : diffuseEdge s = .next { s with
    cipher := clock s.params.clkTaps s.cipher false false, cnt := s.cnt + 1 } := by
  simp [diffuseEdge, advanceCount, Nat.le_of_lt h, Nat.ne_of_lt h, setCipher]

theorem diffuseEdge_last (s : State) (h : s.cnt.toNat = 99) : diffuseEdge s = .next { s with
    cipher := clock s.params.clkTaps s.cipher false false, phase := .prime, cnt := 0 } := by
  simp [diffuseEdge, advanceCount, h, setCipher, enterPhase]

theorem primeEdge_eq (s : State) : primeEdge s = .next { s with
    cipher := { s.cipher with delay := combine s.params.r2Out s.cipher },
    phase := if s.chain then .runA else .idle, cnt := 0, chain := s.chain && s.chainHeld } := rfl

theorem runAEdge_mid (s : State) (h : s.cnt.toNat < 113) : runAEdge s = .next { s with
    cipher := (runCycle s.params s.cipher).2, sa := setBit s.sa s.cnt.toNat s.cipher.delay, cnt := s.cnt + 1 } := by
  simp [runAEdge, advanceCount, Nat.le_of_lt h, Nat.ne_of_lt h, setCipher, runCycle]

theorem runAEdge_last (s : State) (h : s.cnt.toNat = 113) : runAEdge s = .next { s with
    cipher := (runCycle s.params s.cipher).2, sa := setBit s.sa 113 s.cipher.delay, phase := .runB, cnt := 0 } := by
  simp [runAEdge, advanceCount, h, setCipher, enterPhase, runCycle]

theorem runBEdge_mid (s : State) (h : s.cnt.toNat < 113) : runBEdge s = .next { s with
    cipher := (runCycle s.params s.cipher).2, sb := setBit s.sb s.cnt.toNat s.cipher.delay, cnt := s.cnt + 1 } := by
  simp [runBEdge, h, setCipher, runCycle]

theorem runBEdge_last (s : State) (h : s.cnt.toNat = 113) : runBEdge s = .next { s with
    cipher := (runCycle s.params s.cipher).2, sb := setBit s.sb 113 s.cipher.delay, phase := .idle, cnt := 0,
    chain := false, ksValid := true } := by
  simp [runBEdge, h, setCipher, enterPhase, runCycle]

/-- A sequencer edge stops only where `CNT` is above its phase's last value (log entry 4). -/
theorem sequencerStep_next (s : State) (h : s.cnt.toNat ≤ s.phase.lastCnt) : ∃ t, sequencerStep s = .next t := by
  unfold sequencerStep
  cases hp : s.phase <;> simp only [hp, Phase.lastCnt] at h <;> simp only
  · exact ⟨_, rfl⟩
  · rcases Nat.lt_or_eq_of_le h with h | h
    · exact ⟨_, loadKeyEdge_mid s h⟩
    · exact ⟨_, loadKeyEdge_last s h⟩
  · rcases Nat.lt_or_eq_of_le h with h | h
    · exact ⟨_, loadFrameEdge_mid s h⟩
    · exact ⟨_, loadFrameEdge_last s h⟩
  · rcases Nat.lt_or_eq_of_le h with h | h
    · exact ⟨_, diffuseEdge_mid s h⟩
    · exact ⟨_, diffuseEdge_last s h⟩
  · exact ⟨_, primeEdge_eq s⟩
  · rcases Nat.lt_or_eq_of_le h with h | h
    · exact ⟨_, runAEdge_mid s h⟩
    · exact ⟨_, runAEdge_last s h⟩
  · rcases Nat.lt_or_eq_of_le h with h | h
    · exact ⟨_, runBEdge_mid s h⟩
    · exact ⟨_, runBEdge_last s h⟩

end Sys2Proof.Machine
end

