-- ==== Sys2Proof/Tests/Slice0.lean ====
section
/-! SUPPORT. Tests of the model against values written out from the spec, and for every statement with hypotheses a
state and operands that meet them all. The expected values are those of 95_test_vectors.md, named by their ids. -/

namespace Sys2Proof.Tests

open Sys2Proof.Machine

/-! ## Well-formedness: one ill-formed term for each check -/

theorem test_illformed_0C0F : (Instr.reserved0C0F 0x0B).wellFormed = false ∧
    (Instr.reserved0C0F 0x10).wellFormed = false := by decide
theorem test_illformed_101F : (Instr.reserved101F 0x0F).wellFormed = false ∧
    (Instr.reserved101F 0x20).wellFormed = false := by decide
theorem test_illformed_203F : (Instr.reserved203F 0x1F).wellFormed = false ∧
    (Instr.reserved203F 0x40).wellFormed = false := by decide
theorem test_illformed_407F : (Instr.reserved407F 0x3F).wellFormed = false ∧
    (Instr.reserved407F 0x80).wellFormed = false := by decide
theorem test_illformed_80FF : (Instr.reserved80FF 0x7F).wellFormed = false ∧
    (Instr.reserved80FF 0x00).wellFormed = false := by decide

/-! ## Decoding: words written out bit by bit, `op` in bits 39..32 and `data` in bits 31..0 (30_encoding.md R192, R193) -/

theorem test_decode_nop :
    decode 0b0000000000000000000000000000000000000000#40 = .nop := by decide
theorem test_decode_clock_force :
    decode 0b0000000100000000000000000000000000000001#40 = .clock true false := by decide
theorem test_decode_clock_load :
    decode 0b0000000100000000000000000000000000000010#40 = .clock false true := by decide
theorem test_decode_outbit :
    decode 0b0000001000000000000000000000000000000000#40 = .outbit := by decide
theorem test_decode_keyclr :
    decode 0b0000001100000000000000000000000000000000#40 = .keyclr := by decide
/-- `data[31:8]` are ignored (V-KEY-4). -/
theorem test_decode_keybyte :
    decode 0b0000010000010010001101000101011001111000#40 = .keybyte 0b01111000#8 := by decide
/-- `data[31:22]` are discarded (V-FRM-2). -/
theorem test_decode_frame :
    decode 0b0000010111111111110000000000000000100001#40 = .frame 0b0000000000000000100001#22 := by decide
theorem test_decode_setup :
    decode 0b0000011000000000000000000000000000000000#40 = .setup := by decide
theorem test_decode_run :
    decode 0b0000011100000000000000000000000000000000#40 = .run := by decide
theorem test_decode_generate :
    decode 0b0000100000000000000000000000000000000000#40 = .generate := by decide
theorem test_decode_read :
    decode 0b0000100100000000000000000000000000101110#40 = .read 0b00101110#8 := by decide
theorem test_decode_clrerr :
    decode 0b0000101000000000000000000000000000000000#40 = .clrerr := by decide
theorem test_decode_reserved0B :
    decode 0b0000101111111111111111111111111111111111#40 = .reserved0B := by decide
theorem test_decode_reserved0C0F :
    decode 0b0000110000000000000000000000000000000000#40 = .reserved0C0F 0b00001100#8 ∧
    decode 0b0000111100000000000000000000000000000000#40 = .reserved0C0F 0b00001111#8 := by decide
theorem test_decode_reserved101F :
    decode 0b0001000000000000000000000000000000000000#40 = .reserved101F 0b00010000#8 ∧
    decode 0b0001111100000000000000000000000000000000#40 = .reserved101F 0b00011111#8 := by decide
theorem test_decode_reserved203F :
    decode 0b0010000000000000000000000000000000000000#40 = .reserved203F 0b00100000#8 ∧
    decode 0b0011111100000000000000000000000000000000#40 = .reserved203F 0b00111111#8 := by decide
theorem test_decode_reserved407F :
    decode 0b0100000000000000000000000000000000000000#40 = .reserved407F 0b01000000#8 ∧
    decode 0b0111111100000000000000000000000000000000#40 = .reserved407F 0b01111111#8 := by decide
theorem test_decode_reserved80FF :
    decode 0b1000000000000000000000000000000000000000#40 = .reserved80FF 0b10000000#8 ∧
    decode 0b1111111111111111111111111111111111111111#40 = .reserved80FF 0b11111111#8 := by decide

/-- `clock 1, 1` is `01:00000003`, `frame 0x21` is `05:00000021` and `read sb[14]` is `09:0000002E` (R199). -/
theorem test_encode : encode (.clock true true) = 0x0100000003 ∧ encode (.frame 0x21) = 0x0500000021 ∧
    encode (.read 0x2E) = 0x090000002E := by decide

theorem test_table_word : decodeTableWord 40 0x0100000003 = some (.clock true true) ∧
    decodeTableWord 32 0x0100000003 = some .nop ∧ decodeTableWord 48 0 = none := by decide

/-! ## One step of each command -/

/-- The next state of a step, if it has one. -/
def nextOf : Host.Outcome State Fault Refusal → Option State
  | .next t => some t
  | .fault _ => none
  | .refused _ => none

/-- The reset state with given LFSRs and delay bit. -/
def withCipher (r1 : BitVec 19) (r2 : BitVec 22) (r3 : BitVec 23) (r4 : BitVec 17) (delay : Bool) : State :=
  { State.reset with cipher := { r1 := r1, r2 := r2, r3 := r3, r4 := r4, delay := delay } }

/-- V-CLK-7, V-CLK-8 and V-OUT-9's registers. -/
def mixed (r4 : BitVec 17) : State := withCipher 0x12345 0x123456 0x234567 r4 false

/-- `s` one edge after the host presents `w`. -/
def present (w : Nat) (s : State) : Option State := nextOf (step (s.withFetchWord 40 w))

/-- V-HC-1, with the registers kept. -/
theorem test_nop : present 0x0000000000 (mixed 0x88) = some (mixed 0x88) := by decide

/-- V-CLK-8: `R1` is held and does not get its forced bit. -/
theorem test_clock_held : present 0x0100000002 (mixed 0x00088) =
    some (withCipher 0x12345 0x2568AD 0x468ACF 0x00510 false) := by decide
/-- V-CLK-14: one tapped bit in each register. -/
theorem test_clock_taps : present 0x0100000001 (withCipher 0x02000 0x100000 0x000080 0x00800 true) =
    some (withCipher 0x04001 0x200001 0x000101 0x01001 true) := by decide

/-- V-OUT-6 under DOC: bits 14 and 12 of `R2`. -/
theorem test_outbit_doc : present 0x0200000000 (withCipher 0 0x005000 0 0 false) =
    some (withCipher 0 0x005000 0 0 true) := by decide
/-- V-OUT-8: the old `DELAY` is returned. -/
theorem test_outbit_old_delay : (present 0x0200000000 (withCipher 0 0 0x050000 0 true)).map
    (fun t => (t.rdata, t.cipher.delay)) = some (1, true) := by decide

/-- V-KEY-5. -/
theorem test_keyclr : (present 0x0300000000 { State.reset with key := 0x0807060504030201, keycnt := 15 }).map
    (fun t => (t.key, t.keycnt)) = some (0, 0) := by decide

/-- V-KEY-2's last byte. -/
theorem test_keybyte_eighth : (present 0x04000000EF { State.reset with key := 0x00CDAB8967452312, keycnt := 7 }).map
    (fun t => (t.key, t.keycnt)) = some (0xEFCDAB8967452312, 8) := by decide
/-- V-KEY-3's last byte: not stored, and the count stays at 15. -/
theorem test_keybyte_saturates : (present 0x0400000011 { State.reset with key := 0x0807060504030201, keycnt := 15 }).map
    (fun t => (t.key, t.keycnt)) = some (0x0807060504030201, 15) := by decide

/-- V-FRM-1. -/
theorem test_frame_all_ones : (present 0x05FFFFFFFF State.reset).map (fun t => t.frame) = some 0x3FFFFF := by decide
/-- V-FRM-2. -/
theorem test_frame_truncates : (present 0x05FFC00021 State.reset).map (fun t => t.frame) = some 0x21 := by decide

/-- V-SEQ-2 at e0: the LFSRs are zeroed and the status is 0x00000181. -/
theorem test_setup_starts : (present 0x0600000000 { mixed 0x88 with keycnt := 8 }).map
    (fun t => (t.cipher.r1, t.cipher.r4, statusWord t)) = some (0, 0, 0x00000181) := by decide
/-- V-LD-5: a seven-byte key. -/
theorem test_setup_rejects : (present 0x0600000000 { mixed 0x88 with keycnt := 7 }).map
    (fun t => (t.cipher.r1, statusWord t)) = some (0x12345, 0x00000072) := by decide

/-- V-SEQ-3 at e0. -/
theorem test_run_starts : (present 0x0700000000 { State.reset with keycnt := 8, ksValid := true }).map statusWord =
    some 0x00000581 := by decide

/-- V-SEQ-1 at e0. -/
theorem test_generate_starts : (present 0x0800000000 { State.reset with keycnt := 8 }).map statusWord =
    some 0x00000981 := by decide
/-- V-HC-7: a ninth byte, and the streams of an earlier run stay valid. -/
theorem test_generate_rejects :
    (present 0x0800000000 { State.reset with keycnt := 9, ksValid := true }).map statusWord =
      some 0x0000009A := by decide

/-- R351's example: `read r3` after `clock 1, 1`. -/
theorem test_read_r3 : (present 0x0900000002 (withCipher 0x08000 0x010000 0x040000 0x00400 false)).map
    (fun t => t.rdata) = some 0x00040000 := by decide
/-- V-HC-2: `RDATA` stays and `ERR_CMD` is set. -/
theorem test_read_reserved : (present 0x090000001F { State.reset with rdata := 0x00040000 }).map
    (fun t => (t.rdata, statusWord t)) = some (0x00040000, 0x00000004) := by decide

/-- V-HC-6. -/
theorem test_clrerr : (present 0x0A00000000 { State.reset with keycnt := 7, errKeylen := true, errCmd := true }).map
    statusWord = some 0x00000070 := by decide

/-- V-HC-3, for one opcode of each reserved row. -/
theorem test_reserved : ∀ w ∈ [0x0BFFFFFFFF, 0x0C00000000, 0x1F00000000, 0x2000000000, 0x7F00000000, 0xFFFFFFFFFF],
    present w State.reset = some { State.reset with errCmd := true } := by decide

/-! ## One edge of each phase, with values of V-LD-1 and V-SEQ-1 -/

/-- V-LD-1's key and frame, eight bytes entered, in a given phase of a `GENERATE`, in the reading of V-SEQ-1, whose
status words show `CHAIN` in RUNA and RUNB (log entry 6). -/
def loading (p : Phase) (cnt : BitVec 7) (c : State) : State :=
  { c with
    key := 0xFFFFFFFFFFFFFC00, frame := 0x21, keycnt := 8, phase := p, cnt := cnt
    chain := true, chainHeld := true }

/-- From e0+63 to e0+64. -/
theorem test_loadkey_edge :
    (nextOf (step (loading .loadKey 63 (withCipher 0x678A4 0x3FF9FF 0x60A666 0x00F9C false)))).map
      (fun t => (t.cipher, statusWord t)) =
    some ({ r1 := 0x4F148, r2 := 0x3FF3FF, r3 := 0x414CCD, r4 := 0x01F38, delay := false }, 0x00000A81) := by decide

/-- From e0+64 to e0+65. -/
theorem test_loadframe_edge :
    (nextOf (step (loading .loadFrame 0 (withCipher 0x4F148 0x3FF3FF 0x414CCD 0x01F38 false)))).map
      (fun t => (t.cipher, statusWord t)) =
    some ({ r1 := 0x1E291, r2 := 0x3FE7FF, r3 := 0x02999B, r4 := 0x03E70, delay := false }, 0x00001A81) := by decide

/-- From e0+86 to e0+87. -/
theorem test_diffuse_edge :
    (nextOf (step (loading .diffuse 0 (withCipher 0x6FF45 0x211400 0x750232 0x006EF false)))).map
      (fun t => (t.cipher, statusWord t)) =
    some ({ r1 := 0x5FE8B, r2 := 0x022801, r3 := 0x6A0465, r4 := 0x00DDE, delay := false }, 0x00001B81) := by decide

/-- From e0+186 to e0+187. -/
theorem test_prime_edge :
    (nextOf (step (loading .prime 0 (withCipher 0x33195 0x3CC07C 0x151B22 0x0CE3E true)))).map
      (fun t => (t.cipher.r1, t.cipher.delay, statusWord t)) = some (0x33195, false, 0x00000D81) := by decide

/-- The same edge as R141 says, which is the reading of `State.reset`: the sequence goes on to RUNA, and `CHAIN`, bit 11,
is 0. -/
theorem test_prime_edge_r141 :
    (nextOf (step { loading .prime 0 (withCipher 0x33195 0x3CC07C 0x151B22 0x0CE3E true) with
      chainHeld := State.reset.chainHeld })).map statusWord = some 0x00000581 := by decide

/-- From e0+187 to e0+188. -/
theorem test_runa_edge :
    (nextOf (step (loading .runA 0 (withCipher 0x33195 0x3CC07C 0x151B22 0x0CE3E false)))).map
      (fun t => (t.cipher, statusWord t)) =
    some ({ r1 := 0x6632B, r2 := 0x3980F8, r3 := 0x151B22, r4 := 0x19C7D, delay := true }, 0x00001D81) := by decide

/-- From e0+414 to e0+415, the end of the sequence. -/
theorem test_runb_edge :
    (nextOf (step (loading .runB 113 (withCipher 0x5D536 0x18F2F1 0x68D432 0x16F1C false)))).map
      (fun t => (t.cipher, statusWord t)) =
    some ({ r1 := 0x3AA6C, r2 := 0x31E5E3, r3 := 0x68D432, r4 := 0x0DE38, delay := true }, 0x00000088) := by decide

/-- V-RST-1 and V-RST-2: reset in mid-sequence, with a command presented. The reading `chainHeld` is no field of the block
and stays. -/
theorem test_reset_edge :
    nextOf (step { loading .diffuse 13 (withCipher 0x22F14 0x280119 0x119525 0x1EDB0 true) with
      inputs := [{ rst := true, cmdValid := true, cmdOp := 0x09, cmdData := 0 }] }) =
    some { State.reset with chainHeld := true } := by decide

/-- V-RD-1: bits 112 and 113 of a stream stand in bits 7 and 6 of byte 14. -/
theorem test_stream_byte : streamByte (setBit 0 113 true) 14 = 0x40 ∧ streamByte (setBit 0 112 true) 14 = 0x80 ∧
    streamByte (setBit 0 0 true) 0 = 0x80 := by decide

/-! ## The hypotheses of the statements can be met

`witness_<Name>` shows, for the statement `Obligations.<Name>`, concrete states and operands that meet its hypotheses
together, at the bounds of each range. -/

/-- The invariant of a state, checked field by field. -/
theorem inv_of (s : State) (h : s.cnt.toNat ≤ s.phase.lastCnt ∧ (s.phase = .idle → s.chain = false) ∧
    (s.phase.isLoader = true → s.keycnt = 8 ∧ s.errKeylen = false) ∧ (s.phase.isRun = true → s.ksValid = false) ∧
    (s.chain = true → s.keycnt = 8 ∧ s.errKeylen = false ∧ s.ksValid = false) ∧
    (s.chain = true → s.chainHeld = false → s.phase.isLoader = true)) : s.Inv :=
  ⟨h.1, h.2.1, h.2.2.1, h.2.2.2.1, h.2.2.2.2.1, h.2.2.2.2.2⟩

/-- An idle state whose host presents `w` next and then keeps quiet. -/
def asking (w : CmdWord) (s : State) : State := { s with phase := .idle, inputs := [presentPorts w] }

/-- A sample of the host with `rst = 0` and no command. -/
def quiet : Ports := { rst := false, cmdValid := false, cmdOp := 0xFF, cmdData := 0 }

/-- A sample of the host with `rst = 1` and a command presented. -/
def resetting : Ports := { rst := true, cmdValid := true, cmdOp := 0x08, cmdData := 0 }

theorem witness_DecodeOfEncodeIsTheCommand : (Instr.clock true false).WellFormed ∧ (Instr.frame 0x3FFFFF).WellFormed ∧
    Instr.reserved0B.WellFormed ∧ (Instr.reserved0C0F 0x0C).WellFormed ∧ (Instr.reserved101F 0x1F).WellFormed ∧
    (Instr.reserved203F 0x20).WellFormed ∧ (Instr.reserved407F 0x7F).WellFormed ∧
    (Instr.reserved80FF 0xFF).WellFormed := by decide

theorem witness_DecodeFollowsTheOpcodeMap : 0x0B ≤ (0x0B : Byte).toNat ∧ 0x0B ≤ (0xFF : Byte).toNat := by decide

theorem witness_AdvanceShiftsUpAndForcesItsBit :
    (1 ≤ 1 ∧ 18 < 19) ∧ (1 ≤ 1 ∧ 21 < 22) ∧ (1 ≤ 1 ∧ 22 < 23) ∧ (1 ≤ 1 ∧ 16 < 17) := by decide

theorem witness_ClockKeepsNonzeroRegistersNonzero : (mixed 0x88).cipher.r1 ≠ 0 ∧ (mixed 0x88).cipher.r2 ≠ 0 ∧
    (mixed 0x88).cipher.r3 ≠ 0 ∧ (mixed 0x88).cipher.r4 ≠ 0 := by decide

/-- V-CLK-7's control bits: `c1 c2 c3 = 011`, majority 1. -/
theorem witness_ClockCommandBitByBit :
    false = (mixed 0x88).cipher.r4.getLsbD (mixed 0x88).params.clkTaps.t1 ∧
    true = (mixed 0x88).cipher.r4.getLsbD (mixed 0x88).params.clkTaps.t2 ∧
    true = (mixed 0x88).cipher.r4.getLsbD (mixed 0x88).params.clkTaps.t3 ∧
    true = ((false && true) || (false && true) || (true && true)) := by decide

/-- A state that agrees with the one an `OUTBIT` leaves in `DELAY` alone. -/
theorem witness_OutbitIsOneExtractionLate : ∃ t, exec .outbit (mixed 0x88) = .next t ∧
    (withCipher 0 0 0 0 false).cipher.delay = t.cipher.delay := ⟨_, rfl, by decide⟩

theorem witness_KeybyteAppendsOneByte : 0 < 64 ∧ 63 < 64 ∧
    ({ State.reset with keycnt := 7 } : State).keycnt.toNat < 8 ∧ 63 / 8 = 7 := by decide

theorem witness_FrameStoresTheLow22Bits : (asking 0x05FFC00021 State.reset).phase = .idle ∧
    (asking 0x05FFC00021 State.reset).Presents ((0x05 : Byte) ++ (0xFFC00021 : Word)) :=
  ⟨rfl, rfl, rfl, by decide⟩

theorem witness_SetupStartsTheLoader : ({ mixed 0x88 with keycnt := 8 } : State).keycnt = 8 := rfl

theorem witness_GenerateStartsTheChainedLoader :
    ({ mixed 0x88 with keycnt := 8, ksValid := true } : State).keycnt = 8 := rfl

theorem witness_WrongKeyLengthOnlySetsItsFlag : ({ mixed 0x88 with keycnt := 7 } : State).keycnt ≠ 8 ∧
    ({ mixed 0x88 with keycnt := 9 } : State).keycnt ≠ 8 := by decide

/-- The bounds of the two stream windows and of the three reserved ranges. -/
theorem witness_ReadFollowsTheSelectorMap : (0 < 15 ∧ 14 < 15) ∧
    (0x07 ≤ (0x07 : Byte).toNat ∧ (0x07 : Byte).toNat ≤ 0x0F) ∧ (0x07 ≤ (0x0F : Byte).toNat ∧ (0x0F : Byte).toNat ≤ 0x0F) ∧
    (0x1F : Byte).toNat = 0x1F ∧ 0x2F ≤ (0x2F : Byte).toNat ∧ 0x2F ≤ (0xFF : Byte).toNat := by decide

theorem witness_ReservedOpcodesOnlySetErrCmd : 0x0B ≤ (0x0B : Byte).toNat ∧
    (asking 0x0BFFFFFFFF (mixed 0x88)).phase = .idle ∧
    (asking 0x0BFFFFFFFF (mixed 0x88)).Presents ((0x0B : Byte) ++ (0xFFFFFFFF : Word)) :=
  ⟨by decide, rfl, rfl, rfl, by decide⟩

/-- Nine bytes, one more than a key. -/
theorem witness_KeyEntryStoresEightBytesAndCountsAll : ∃ (s : State) (bs : List Byte) (rest : List Ports),
    s.phase = .idle ∧ bs.length = 9 ∧
    s.inputs = presentPorts (encode .keyclr) :: ((bs.map fun b => presentPorts (encode (.keybyte b))) ++ rest) ∧
    63 < 64 :=
  ⟨{ mixed 0x88 with inputs := presentPorts (encode .keyclr) ::
      (([1, 2, 3, 4, 5, 6, 7, 8, 9] : List Byte).map fun b => presentPorts (encode (.keybyte b))) ++ [quiet] },
    [1, 2, 3, 4, 5, 6, 7, 8, 9], [quiet], rfl, rfl, rfl, by decide⟩

theorem witness_StepRunsTheDecodedCommand : (Instr.clock true true).WellFormed ∧
    (asking 0x0100000003 (mixed 0x88)).phase = .idle ∧
    (asking 0x0100000003 (mixed 0x88)).Presents (encode (.clock true true)) :=
  ⟨by decide, rfl, rfl, rfl, by decide⟩

/-- A command taken; and one not taken because the block is busy, with another one presented in its place. -/
theorem witness_CommandIsTakenExactlyWhenReady :
    ((presentPorts 0x0100000003).cmdValid = true ∧ State.reset.cmdReady (presentPorts 0x0100000003).rst = true) ∧
    (¬((presentPorts 0x0100000003).cmdValid = true ∧
      (loading .diffuse 0 State.reset).cmdReady (presentPorts 0x0100000003).rst = true) ∧
      ¬(true = true ∧ (loading .diffuse 0 State.reset).cmdReady (presentPorts 0x0100000003).rst = true)) := by decide

theorem witness_ResetEdgeGivesTheResetState : resetting.rst = true := rfl

theorem witness_IdleBlockHoldsItsState : (mixed 0x88).phase = .idle ∧ (mixed 0x88).portsNow.rst = false ∧
    (mixed 0x88).portsNow.cmdValid = false := by decide

/-- The packed bytes of a vector, whose last pad bit is bit `8 * 14 + 7`. -/
theorem witness_StreamBytesArePackedMsbFirst : (14 < 15 ∧ 7 < 8 ∧ 113 < 114) ∧
    ∀ i, i < 114 → (0x5 : BitVec 114).getLsbD i = (streamByte (0x5 : BitVec 114) (i / 8)).getLsbD (7 - i % 8) := by
  refine ⟨by decide, fun i _ => ?_⟩
  rw [streamByte_getLsbD _ _ _ (Nat.mod_lt i (by decide)), Nat.div_add_mod]

theorem witness_LoadKeyEdgeTakesOneKeyBit : (loading .loadKey 0 (mixed 0x88)).phase = .loadKey ∧
    (loading .loadKey 0 (mixed 0x88)).cnt.toNat ≤ 63 ∧ (loading .loadKey 63 (mixed 0x88)).cnt.toNat ≤ 63 ∧
    quiet.rst = false := by decide

theorem witness_LoadFrameEdgeTakesOneFrameBit : (loading .loadFrame 0 (mixed 0x88)).phase = .loadFrame ∧
    (loading .loadFrame 0 (mixed 0x88)).cnt.toNat ≤ 21 ∧ (loading .loadFrame 21 (mixed 0x88)).cnt.toNat ≤ 21 ∧
    quiet.rst = false := by decide

theorem witness_DiffuseEdgeClocksByMajority : (loading .diffuse 0 (mixed 0x88)).phase = .diffuse ∧
    (loading .diffuse 0 (mixed 0x88)).cnt.toNat ≤ 99 ∧ (loading .diffuse 99 (mixed 0x88)).cnt.toNat ≤ 99 ∧
    quiet.rst = false := by decide

theorem witness_PrimeEdgeFillsTheDelay : (loading .prime 0 (mixed 0x88)).phase = .prime ∧ quiet.rst = false := by decide

theorem witness_EngineEdgeWritesOneStreamBit :
    ((loading .runA 0 (mixed 0x88)).phase = .runA ∧ (loading .runA 0 (mixed 0x88)).cnt.toNat ≤ 113) ∧
    ((loading .runB 113 (mixed 0x88)).phase = .runB ∧ (loading .runB 113 (mixed 0x88)).cnt.toNat ≤ 113) ∧
    quiet.rst = false ∧ 113 < 114 := by decide

/-- An idle block with eight key bytes, whose host presents a word and then drives another command. -/
def ready (w : CmdWord) : State :=
  { mixed 0x88 with keycnt := 8, key := 0xFFFFFFFFFFFFFC00, frame := 0x21, inputs := [presentPorts w, presentPorts 0] }

theorem ready_noReset (w : CmdWord) (n : Nat) : (ready w).NoReset n := by
  intro p hp
  have := List.mem_of_mem_take hp
  simp only [ready, List.mem_cons, List.not_mem_nil, or_false] at this
  rcases this with rfl | rfl <;> rfl

theorem witness_SetupComputesTheLoaderFunction : (ready 0x0600000000).phase = .idle ∧ (ready 0x0600000000).keycnt = 8 ∧
    (ready 0x0600000000).Presents ((0x06 : Byte) ++ (0 : Word)) ∧ (ready 0x0600000000).NoReset 188 :=
  ⟨rfl, rfl, ⟨rfl, rfl, by decide⟩, ready_noReset _ _⟩

theorem witness_RunWritesConsecutiveWindows : (ready 0x0700000000).phase = .idle ∧
    (ready 0x0700000000).Presents ((0x07 : Byte) ++ (0 : Word)) ∧ (ready 0x0700000000).NoReset 229 ∧
    (1 ≤ 1 ∧ 113 < 114) :=
  ⟨rfl, ⟨rfl, rfl, by decide⟩, ready_noReset _ _, by decide⟩

theorem witness_GenerateEqualsSetupThenRun : (ready 0).phase = .idle ∧ (ready 0).keycnt = 8 ∧
    (List.replicate 187 quiet).length = 187 ∧ (∀ p ∈ [quiet], p.rst = false) ∧
    (∀ p ∈ List.replicate 187 quiet, p.rst = false) ∧ (∀ p ∈ ([] : List Ports), p.rst = false) :=
  ⟨rfl, rfl, List.length_replicate, by decide, fun p hp => by rw [List.eq_of_mem_replicate hp]; rfl, by decide⟩

/-- A `GENERATE`, whose sequence has 415 edges before its end. -/
theorem witness_EveryCommandTakesItsStatedEdges : (ready 0x0800000000).phase = .idle ∧
    (ready 0x0800000000).Presents 0x0800000000 ∧
    (ready 0x0800000000).NoReset (edgesOf (decode 0x0800000000) (ready 0x0800000000).keycnt) ∧
    415 < edgesOf (decode 0x0800000000) (ready 0x0800000000).keycnt :=
  ⟨rfl, ⟨rfl, rfl, by decide⟩, ready_noReset _ _, by decide⟩

theorem loading_inv (p : Phase) (cnt : BitVec 7) (s : State) (h1 : p ≠ .idle) (h2 : cnt.toNat ≤ p.lastCnt)
    (h3 : s.errKeylen = false) (h4 : s.ksValid = false) : (loading p cnt s).Inv :=
  inv_of _ ⟨h2, fun h => absurd h h1, fun _ => ⟨rfl, h3⟩, fun _ => h4, fun _ => ⟨rfl, h3, h4⟩,
    fun _ h => absurd h (by decide : true ≠ false)⟩

/-- A `GENERATE` from a state of the invariant: after edge 187 the block is in PRIME, after edge 415 in its last RUNB
cycle. -/
theorem witness_ChainMarksAGenerate : (ready 0x0800000000).Inv ∧ (ready 0x0800000000).phase = .idle ∧
    (ready 0x0800000000).Presents 0x0800000000 ∧
    (ready 0x0800000000).NoReset (edgesOf (decode 0x0800000000) (ready 0x0800000000).keycnt) ∧
    187 < edgesOf (decode 0x0800000000) (ready 0x0800000000).keycnt ∧
    415 < edgesOf (decode 0x0800000000) (ready 0x0800000000).keycnt ∧ decode 0x0800000000 = .generate :=
  ⟨inv_of _ (by decide), rfl, ⟨rfl, rfl, by decide⟩, ready_noReset _ _, by decide, by decide, by decide⟩

theorem witness_BlockNeverHangs :
    ((ready 0x0800000000).phase = .idle ∧ (ready 0x0800000000).Presents 0x0800000000 ∧
      (ready 0x0800000000).NoReset 416) ∧
    ((loading .loadKey 0 (ready 0)).Inv ∧ (loading .loadKey 0 (ready 0)).NoReset 415) :=
  ⟨⟨rfl, ⟨rfl, rfl, by decide⟩, ready_noReset _ _⟩,
    loading_inv _ _ _ (by decide) (by decide) rfl rfl, ready_noReset 0 415⟩

theorem witness_RunOnTheZeroStateGivesZeroStreams : (asking 0x0700000000 State.reset).phase = .idle ∧
    (asking 0x0700000000 State.reset).cipher = zeroCipher false ∧
    (asking 0x0700000000 State.reset).Presents ((0x07 : Byte) ++ (0 : Word)) ∧
    (asking 0x0700000000 State.reset).NoReset 229 := by
  refine ⟨rfl, rfl, ⟨rfl, rfl, by decide⟩, fun p hp => ?_⟩
  have := List.mem_of_mem_take hp
  simp only [asking, List.mem_singleton] at this
  rw [this]; rfl

theorem witness_LastFrameBitPlacesTheForcedBits : (loading .loadFrame 21 (mixed 0x88)).phase = .loadFrame ∧
    (loading .loadFrame 21 (mixed 0x88)).cnt = 21 ∧ (loading .loadFrame 21 (mixed 0x88)).portsNow.rst = false := by decide

/-- The last RUNA edge and the first RUNB edge. -/
theorem witness_KsbitMatchesAnEngineCycle :
    ((loading .runA 113 (mixed 0x88)).cipher = (mixed 0x88).cipher ∧
      (loading .runA 113 (mixed 0x88)).params = (mixed 0x88).params ∧ (loading .runA 113 (mixed 0x88)).phase = .runA ∧
      (loading .runA 113 (mixed 0x88)).cnt.toNat ≤ 113 ∧ (loading .runA 113 (mixed 0x88)).portsNow.rst = false) ∧
    ((loading .runB 0 (mixed 0x88)).cipher = (mixed 0x88).cipher ∧
      (loading .runB 0 (mixed 0x88)).params = (mixed 0x88).params ∧ (loading .runB 0 (mixed 0x88)).phase = .runB ∧
      (loading .runB 0 (mixed 0x88)).cnt.toNat ≤ 113 ∧ (loading .runB 0 (mixed 0x88)).portsNow.rst = false) := by decide

/-- `Combine` of V-OUT-9's registers is 0, which `DELAY` holds. -/
theorem witness_OutbitAfterSetupReturnsTheFirstStreamBit :
    (mixed 0x88).cipher.delay = combine (mixed 0x88).params.r2Out (mixed 0x88).cipher ∧
    (loading .runA 0 (mixed 0x88)).cipher = (mixed 0x88).cipher ∧ (loading .runA 0 (mixed 0x88)).phase = .runA ∧
    (loading .runA 0 (mixed 0x88)).cnt = 0 ∧ (loading .runA 0 (mixed 0x88)).portsNow.rst = false := by decide

theorem witness_StepKeepsTheInvariant : ∃ t, (loading .prime 0 (mixed 0x88)).Inv ∧
    step (loading .prime 0 (mixed 0x88)) = .next t :=
  ⟨_, loading_inv _ _ _ (by decide) (by decide) rfl rfl, rfl⟩

theorem witness_InvariantStatesAlwaysStep : (loading .runB 113 (mixed 0x88)).Inv :=
  loading_inv _ _ _ (by decide) (by decide) rfl rfl

theorem witness_StepKeepsLoadedRegistersNonzero : ∃ t, (loading .diffuse 99 (mixed 0x88)).Inv ∧
    ((loading .diffuse 99 (mixed 0x88)).pastFrame → (loading .diffuse 99 (mixed 0x88)).cipher.AllNonzero) ∧
    step (loading .diffuse 99 (mixed 0x88)) = .next t ∧ t.pastFrame :=
  ⟨_, loading_inv _ _ _ (by decide) (by decide) rfl rfl, fun _ => ⟨by decide, by decide, by decide, by decide⟩, rfl,
    .inr (.inl rfl)⟩

theorem witness_OnlyLoadKeyReadsTheKey : ∃ t, (loading .runB 113 (mixed 0x88)).phase ≠ .loadKey ∧
    step (loading .runB 113 (mixed 0x88)) = .next t := ⟨_, by decide, rfl⟩

/-- A `KEYBYTE` and a `FRAME` that change what they write. -/
theorem witness_OnlyKeyAndFrameCommandsWriteThem :
    (∃ t, step (asking 0x0400000078 State.reset) = .next t ∧
      (asking 0x0400000078 State.reset).portsNow.rst = false ∧ t.key ≠ State.reset.key) ∧
    (∃ t, step (asking 0x0500000021 State.reset) = .next t ∧
      (asking 0x0500000021 State.reset).portsNow.rst = false ∧ t.frame ≠ State.reset.frame) :=
  ⟨⟨_, rfl, by decide, by decide⟩, ⟨_, rfl, by decide, by decide⟩⟩

/-- The last RUNA and the last RUNB edge, each changing stream bit 113. -/
theorem witness_OnlyEngineEdgesWriteTheStreams :
    (∃ t, step (loading .runA 113 (withCipher 0 0 0 0 true)) = .next t ∧
      (loading .runA 113 (withCipher 0 0 0 0 true)).portsNow.rst = false ∧
      t.sa.getLsbD 113 ≠ (loading .runA 113 (withCipher 0 0 0 0 true)).sa.getLsbD 113) ∧
    (∃ t, step (loading .runB 113 (withCipher 0 0 0 0 true)) = .next t ∧
      (loading .runB 113 (withCipher 0 0 0 0 true)).portsNow.rst = false ∧
      t.sb.getLsbD 113 ≠ (loading .runB 113 (withCipher 0 0 0 0 true)).sb.getLsbD 113) :=
  ⟨⟨_, rfl, by decide, by decide⟩, ⟨_, rfl, by decide, by decide⟩⟩

/-- A `READ`, an `OUTBIT` and a `CLOCK` that change what they write. -/
theorem witness_OnlyNamedEventsWriteRdataAndCipher :
    (∃ t, step (asking 0x0900000000 (mixed 0x88)) = .next t ∧
      (asking 0x0900000000 (mixed 0x88)).portsNow.rst = false ∧ t.rdata ≠ (mixed 0x88).rdata) ∧
    (∃ t, step (asking 0x0200000000 (withCipher 0x40000 0 0 0 false)) = .next t ∧
      (asking 0x0200000000 (withCipher 0x40000 0 0 0 false)).portsNow.rst = false ∧ t.cipher.delay ≠ false) ∧
    (∃ t, step (asking 0x0100000000 (mixed 0x88)) = .next t ∧
      (asking 0x0100000000 (mixed 0x88)).portsNow.rst = false ∧ t.cipher.r2 ≠ (mixed 0x88).cipher.r2) :=
  ⟨⟨_, rfl, by decide, by decide⟩, ⟨_, rfl, by decide, by decide⟩, ⟨_, rfl, by decide, by decide⟩⟩

/-- An edge without reset and one with. -/
theorem witness_FlagsChangeExactlyAsStated :
    (∃ t, edge quiet (loading .runB 113 (mixed 0x88)) = .next t ∧ quiet.rst = false) ∧
    (∃ t, edge resetting (loading .runB 113 (mixed 0x88)) = .next t ∧ resetting.rst = true) :=
  ⟨⟨_, rfl, rfl⟩, ⟨_, rfl, rfl⟩⟩

theorem witness_ParametersNeverChange : ∃ t, step (loading .loadKey 63 (mixed 0x88)) = .next t := ⟨_, rfl⟩

end Sys2Proof.Tests
end

/-! The statements about file 00_scope.md: parity and majority (R105), and the parameters (R102), which `State.reset`
has at their defaults and no step writes. The sequencer's edges and the two key-checked commands are inverted here once:
what holds of every state one of them answers is then read off the inversion. -/

namespace Sys2Proof.Machine

/-! ## Parity -/

/-- The parity of the `k` lowest bits is that of their number of ones, for every `k`. -/
theorem parityBelow_eq_true_iff {n : Nat} (v : BitVec n) (k : Nat) :
    parityBelow v k = true ↔ ((List.range k).countP fun i => v.getLsbD i) % 2 = 1 := by
  induction k with
  | zero => simp [parityBelow]
  | succ k ih =>
    rw [parityBelow, List.range_succ, List.countP_append, List.countP_singleton]
    cases hbit : v.getLsbD k with
    | false => simp [ih]
    | true =>
      rw [Bool.xor_true, Bool.not_eq_true', ← Bool.not_eq_true, ih, if_pos rfl]
      omega

/-! ## What each sequencer edge and each key-checked command answers -/

section
variable {s t : State}

/-- A LOADKEY edge answers a state exactly inside its phase's range of `CNT` (42_loader.md R291; log entry 4). -/
theorem loadKeyEdge_eq_next_iff : loadKeyEdge s = .next t ↔ s.cnt.toNat ≤ 63 ∧
    advanceCount 63 .loadFrame
      (setCipher (loadCycle s.params.clkTaps s.cipher false (s.key.getLsbD s.cnt.toNat)) s) = t := by
  unfold loadKeyEdge
  by_cases h : s.cnt.toNat ≤ 63 <;> simp [h]

/-- A LOADFRAME edge answers a state exactly inside its phase's range of `CNT` (R292). -/
theorem loadFrameEdge_eq_next_iff : loadFrameEdge s = .next t ↔ s.cnt.toNat ≤ 21 ∧
    advanceCount 21 .diffuse (setCipher
      (loadCycle s.params.clkTaps s.cipher (s.cnt.toNat == 21) (s.frame.getLsbD s.cnt.toNat)) s) = t := by
  unfold loadFrameEdge
  by_cases h : s.cnt.toNat ≤ 21 <;> simp [h]

/-- A DIFFUSE edge answers a state exactly inside its phase's range of `CNT` (R293). -/
theorem diffuseEdge_eq_next_iff : diffuseEdge s = .next t ↔ s.cnt.toNat ≤ 99 ∧
    advanceCount 99 .prime (setCipher (clock s.params.clkTaps s.cipher false false) s) = t := by
  unfold diffuseEdge
  by_cases h : s.cnt.toNat ≤ 99 <;> simp [h]

/-- A RUNA edge answers a state exactly inside its phase's range of `CNT` (43_keystream.md R321). -/
theorem runAEdge_eq_next_iff : runAEdge s = .next t ↔ s.cnt.toNat ≤ 113 ∧
    advanceCount 113 .runB { setCipher (runCycle s.params s.cipher).2 s with
      sa := setBit s.sa s.cnt.toNat (runCycle s.params s.cipher).1 } = t := by
  unfold runAEdge
  by_cases h : s.cnt.toNat ≤ 113 <;> simp [h]

/-- A RUNB edge answers a state before the last value of `CNT` and, otherwise, at it (R321). -/
theorem runBEdge_next_cases (h : runBEdge s = .next t) :
    (s.cnt.toNat < 113 ∧ t = { s with
      cipher := (runCycle s.params s.cipher).2, sb := setBit s.sb s.cnt.toNat s.cipher.delay, cnt := s.cnt + 1 }) ∨
    (s.cnt.toNat = 113 ∧ t = { s with
      cipher := (runCycle s.params s.cipher).2, sb := setBit s.sb 113 s.cipher.delay, phase := .idle, cnt := 0,
      chain := false, ksValid := true }) := by
  rcases Nat.lt_trichotomy s.cnt.toNat 113 with hlt | heq | hgt
  · rw [runBEdge_mid s hlt] at h
    injection h with h
    exact .inl ⟨hlt, h.symm⟩
  · rw [runBEdge_last s heq] at h
    injection h with h
    exact .inr ⟨heq, h.symm⟩
  · simp [runBEdge, Nat.not_lt_of_gt hgt, Nat.ne_of_gt hgt] at h

end

/-- The key length check passes exactly with a key of eight bytes (10_state.md R126). -/
theorem keyLengthOk_iff (s : State) : keyLengthOk s = true ↔ s.keycnt = 8 := beq_iff_eq

/-- `SETUP` either starts the loader, with a key of eight bytes, or raises `KeyLen` (42_loader.md R290). -/
theorem execSetup_cases (s : State) :
    (s.keycnt = 8 ∧ execSetup s = .next (startLoader false s)) ∨
      (s.keycnt ≠ 8 ∧ execSetup s = .next (raiseError .keyLen s)) := by
  by_cases h : s.keycnt = 8
  · exact .inl ⟨h, if_pos ((keyLengthOk_iff s).mpr h)⟩
  · exact .inr ⟨h, if_neg (mt (keyLengthOk_iff s).mp h)⟩

/-- `GENERATE` either starts the loader with `CHAIN` set, or raises `KeyLen` (43_keystream.md R323). -/
theorem execGenerate_cases (s : State) :
    (s.keycnt = 8 ∧ execGenerate s = .next { startLoader true s with ksValid := false }) ∨
      (s.keycnt ≠ 8 ∧ execGenerate s = .next (raiseError .keyLen s)) := by
  by_cases h : s.keycnt = 8
  · exact .inl ⟨h, if_pos ((keyLengthOk_iff s).mpr h)⟩
  · exact .inr ⟨h, if_neg (mt (keyLengthOk_iff s).mp h)⟩

/-! ## The fields of the model's own -/

/-- Two states agree in the fields that are the model's own and no fields of the block: the parameters, the free value
`chainHeld` and the host's coming samples (log entries 1, 3 and 6). -/
structure State.SameModelFields (s t : State) : Prop where
  params : t.params = s.params
  chainHeld : t.chainHeld = s.chainHeld
  inputs : t.inputs = s.inputs

section
variable {s t : State}

/-- The tail of a counted edge, after an update that keeps the model's own fields, keeps them too. -/
theorem advanceCount_sameModelFields (last : Nat) (p : Phase) (h : s.SameModelFields t) :
    s.SameModelFields (advanceCount last p t) := by
  obtain ⟨hparams, hheld, hinputs⟩ := h
  rcases advanceCount_cases last p t with ⟨-, he⟩ | ⟨-, he⟩ <;> rw [he] <;> exact ⟨hparams, hheld, hinputs⟩

theorem raiseError_sameModelFields (e : ErrorCause) (s : State) : s.SameModelFields (raiseError e s) := by
  rw [raiseError_frame]
  exact ⟨rfl, rfl, rfl⟩

/-- No command writes the model's own fields. -/
theorem exec_sameModelFields (i : Instr) (h : exec i s = .next t) : s.SameModelFields t := by
  cases i with
  | nop | clock | outbit | keyclr | keybyte | frame | run | clrerr =>
    injection h with h
    subst h
    exact ⟨rfl, rfl, rfl⟩
  | setup =>
    rcases execSetup_cases s with ⟨-, he⟩ | ⟨-, he⟩
    · cases he.symm.trans h
      exact ⟨rfl, rfl, rfl⟩
    · cases he.symm.trans h
      exact raiseError_sameModelFields _ s
  | generate =>
    rcases execGenerate_cases s with ⟨-, he⟩ | ⟨-, he⟩
    · cases he.symm.trans h
      exact ⟨rfl, rfl, rfl⟩
    · cases he.symm.trans h
      exact raiseError_sameModelFields _ s
  | read sel =>
    rcases execRead_cases sel s with ⟨v, -, he⟩ | ⟨-, he⟩
    · cases he.symm.trans h
      exact ⟨rfl, rfl, rfl⟩
    · cases he.symm.trans h
      exact raiseError_sameModelFields _ s
  | reserved0B | reserved0C0F | reserved101F | reserved203F | reserved407F | reserved80FF =>
    injection h with h
    subst h
    exact raiseError_sameModelFields .badCmd s

/-- No edge of the sequencer writes the model's own fields. -/
theorem sequencerStep_sameModelFields (h : sequencerStep s = .next t) : s.SameModelFields t := by
  unfold sequencerStep at h
  cases hp : s.phase <;> simp only [hp] at h
  case idle =>
    cases h
    exact ⟨rfl, rfl, rfl⟩
  case loadKey =>
    obtain ⟨-, rfl⟩ := loadKeyEdge_eq_next_iff.mp h
    exact advanceCount_sameModelFields _ _ ⟨rfl, rfl, rfl⟩
  case loadFrame =>
    obtain ⟨-, rfl⟩ := loadFrameEdge_eq_next_iff.mp h
    exact advanceCount_sameModelFields _ _ ⟨rfl, rfl, rfl⟩
  case diffuse =>
    obtain ⟨-, rfl⟩ := diffuseEdge_eq_next_iff.mp h
    exact advanceCount_sameModelFields _ _ ⟨rfl, rfl, rfl⟩
  case prime =>
    cases (primeEdge_eq s).symm.trans h
    exact ⟨rfl, rfl, rfl⟩
  case runA =>
    obtain ⟨-, rfl⟩ := runAEdge_eq_next_iff.mp h
    exact advanceCount_sameModelFields _ _ ⟨rfl, rfl, rfl⟩
  case runB =>
    obtain ⟨-, rfl⟩ | ⟨-, rfl⟩ := runBEdge_next_cases h <;> exact ⟨rfl, rfl, rfl⟩

/-- Every step keeps the model's own fields, but for the one sample it takes. -/
theorem step_sameModelFields (h : step s = .next t) : (dropSample s).SameModelFields t := by
  rcases step_cases s with ⟨-, he⟩ | ⟨-, -, -, he⟩ | ⟨-, -, -, he⟩ | ⟨-, -, he⟩ <;> rw [he] at h
  case inl =>
    cases h
    exact ⟨rfl, rfl, rfl⟩
  case inr.inl => exact exec_sameModelFields _ h
  case inr.inr.inl =>
    cases h
    exact ⟨rfl, rfl, rfl⟩
  case inr.inr.inr => exact sequencerStep_sameModelFields h

end

/-! ## The statements -/

/-- Settles O5: parity by induction on the number of bits counted, majority by its truth table. -/
theorem parityAndMajorityAreTheCounts : Obligations.ParityAndMajorityAreTheCounts :=
  ⟨fun n v => parityBelow_eq_true_iff v n, maj_eq⟩

/-- Settles O31: one field of `State.reset` after the other. -/
theorem resetStateHoldsTheStatedValues : Obligations.ResetStateHoldsTheStatedValues :=
  ⟨rfl, rfl, rfl, rfl, rfl, rfl, rfl, rfl, rfl, rfl, rfl, rfl, rfl, rfl, rfl⟩

/-- Settles O60, from what a reset edge, a command, an idle edge and an edge of the sequencer each keep. -/
theorem parametersNeverChange : Obligations.ParametersNeverChange := by
  intro s t h
  obtain ⟨hparams, hheld, hinputs⟩ := step_sameModelFields h
  exact ⟨hparams, hheld, hinputs⟩

end Sys2Proof.Machine

/-! The statements about file 10_state.md: the fields of the block, what writes each of them, the flags, the status
word, and the invariant of the sequencer. What a command and what an edge of a busy block can answer is said once, as the
two inductive relations `Executes` and `SequencerEdge`; each statement is read off their cases. -/

namespace Sys2Proof.Machine

/-! ## The tail of a counted edge, field by field -/

/-- Every phase ends before `CNT` runs out of its seven bits. -/
theorem Phase.lastCnt_lt (p : Phase) : p.lastCnt < 127 := by cases p <;> decide

/-- `CNT` counts up by one as long as it stays in its seven bits. -/
theorem cnt_succ_toNat {c : BitVec 7} (h : c.toNat < 127) : (c + 1).toNat = c.toNat + 1 :=
  BitVec.toNat_add_of_lt (Nat.succ_lt_succ h)

section
variable (last : Nat) (p : Phase) (s : State)

/-- The tail of a counted edge writes `PHASE` and `CNT` alone (10_state.md R141). -/
theorem advanceCount_frame : advanceCount last p s =
    { s with phase := (advanceCount last p s).phase, cnt := (advanceCount last p s).cnt } := by
  unfold advanceCount
  split <;> rfl

@[simp] theorem advanceCount_cipher : (advanceCount last p s).cipher = s.cipher := by rw [advanceCount_frame]
@[simp] theorem advanceCount_key : (advanceCount last p s).key = s.key := by rw [advanceCount_frame]
@[simp] theorem advanceCount_keycnt : (advanceCount last p s).keycnt = s.keycnt := by rw [advanceCount_frame]
@[simp] theorem advanceCount_frameField : (advanceCount last p s).frame = s.frame := by rw [advanceCount_frame]
@[simp] theorem advanceCount_sa : (advanceCount last p s).sa = s.sa := by rw [advanceCount_frame]
@[simp] theorem advanceCount_sb : (advanceCount last p s).sb = s.sb := by rw [advanceCount_frame]
@[simp] theorem advanceCount_rdata : (advanceCount last p s).rdata = s.rdata := by rw [advanceCount_frame]
@[simp] theorem advanceCount_errKeylen : (advanceCount last p s).errKeylen = s.errKeylen := by
  rw [advanceCount_frame]
@[simp] theorem advanceCount_errCmd : (advanceCount last p s).errCmd = s.errCmd := by rw [advanceCount_frame]
@[simp] theorem advanceCount_ksValid : (advanceCount last p s).ksValid = s.ksValid := by rw [advanceCount_frame]
@[simp] theorem advanceCount_chain : (advanceCount last p s).chain = s.chain := by rw [advanceCount_frame]
@[simp] theorem advanceCount_chainHeld : (advanceCount last p s).chainHeld = s.chainHeld := by
  rw [advanceCount_frame]

@[simp] theorem advanceCount_phase :
    (advanceCount last p s).phase = if s.cnt.toNat = last then p else s.phase := by
  rcases advanceCount_cases last p s with ⟨h, he⟩ | ⟨h, he⟩ <;> simp [he, h]

/-- `CNT` after a counted edge, as long as the count does not leave its seven bits. -/
theorem advanceCount_cnt_toNat (hc : s.cnt.toNat ≤ last) (hl : last < 127) :
    (advanceCount last p s).cnt.toNat = if s.cnt.toNat = last then 0 else s.cnt.toNat + 1 := by
  rcases advanceCount_cases last p s with ⟨h, he⟩ | ⟨h, he⟩ <;> rw [he]
  · simp [h]
  · rw [if_neg h]
    exact cnt_succ_toNat (by omega)

/-- The tail of a counted edge does not read `KEY`. -/
theorem advanceCount_withKey (k : BitVec 64) :
    advanceCount last p { s with key := k } = { advanceCount last p s with key := k } := by
  unfold advanceCount
  split <;> rfl

end

/-! ## What a command can answer -/

/-- Command `i`, executed in state `s`, answers the state `t`: one case per command and outcome. -/
inductive Executes (s : State) : Instr → State → Prop
  /-- R350. -/
  | nop : Executes s .nop s
  /-- R237. -/
  | clock (f l : Bool) : Executes s (.clock f l) (setCipher (Machine.clock s.params.clkTaps s.cipher f l) s)
  /-- R265. -/
  | outbit : Executes s .outbit (setRdata ((BitVec.ofBool s.cipher.delay).setWidth 32)
      (setCipher (outputBit s.params.r2Out s.cipher).2 s))
  /-- R284. -/
  | keyclr : Executes s .keyclr { s with key := 0, keycnt := 0 }
  /-- R285. -/
  | keybyte (b : Byte) : Executes s (.keybyte b) { s with
      key := if s.keycnt.toNat < 8 then setKeyByte s.key s.keycnt.toNat b else s.key
      keycnt := bumpKeycnt s.keycnt }
  /-- R286. -/
  | frame (n : BitVec 22) : Executes s (.frame n) { s with frame := n }
  /-- R290, with a key of eight bytes. -/
  | setup (hk : s.keycnt = 8) : Executes s .setup (startLoader false s)
  /-- R290, with a key of another length. -/
  | setupRejected (hk : s.keycnt ≠ 8) : Executes s .setup (raiseError .keyLen s)
  /-- R320. -/
  | run : Executes s .run { enterPhase .runA s with ksValid := false, chain := false }
  /-- R323, with a key of eight bytes. -/
  | generate (hk : s.keycnt = 8) : Executes s .generate { startLoader true s with ksValid := false }
  /-- R323, with a key of another length. -/
  | generateRejected (hk : s.keycnt ≠ 8) : Executes s .generate (raiseError .keyLen s)
  /-- R351. -/
  | read {sel : Byte} {v : Word} (hv : selRead s sel = some v) : Executes s (.read sel) (setRdata v s)
  /-- R351, of a reserved selector. -/
  | readReserved {sel : Byte} (hv : selRead s sel = none) : Executes s (.read sel) (raiseError .badCmd s)
  /-- R352. -/
  | clrerr : Executes s .clrerr (clearErrors s)
  /-- R353. -/
  | reserved {i : Instr} (hi : i.isReserved = true) : Executes s i (raiseError .badCmd s)

/-- A reserved opcode raises `BadCmd` (44_host_control.md R353). -/
theorem exec_of_isReserved {i : Instr} (s : State) (hi : i.isReserved = true) :
    exec i s = .next (raiseError .badCmd s) := by
  cases i with
  | nop | clock | outbit | keyclr | keybyte | frame | setup | run | generate | read | clrerr => cases hi
  | reserved0B | reserved0C0F | reserved101F | reserved203F | reserved407F | reserved80FF => rfl

/-- `Executes` is what `exec` answers. -/
theorem exec_eq_next_iff {i : Instr} {s t : State} : exec i s = .next t ↔ Executes s i t := by
  constructor
  · intro h
    cases i with
    | nop => cases h; exact .nop
    | clock f l => cases h; exact .clock f l
    | outbit => cases h; exact .outbit
    | keyclr => cases h; exact .keyclr
    | keybyte b => cases h; exact .keybyte b
    | frame n => cases h; exact .frame n
    | run => cases h; exact .run
    | clrerr => cases h; exact .clrerr
    | setup =>
      rcases execSetup_cases s with ⟨hk, he⟩ | ⟨hk, he⟩ <;> cases he.symm.trans h
      · exact .setup hk
      · exact .setupRejected hk
    | generate =>
      rcases execGenerate_cases s with ⟨hk, he⟩ | ⟨hk, he⟩ <;> cases he.symm.trans h
      · exact .generate hk
      · exact .generateRejected hk
    | read sel =>
      rcases execRead_cases sel s with ⟨v, hv, he⟩ | ⟨hv, he⟩ <;> cases he.symm.trans h
      · exact .read hv
      · exact .readReserved hv
    | reserved0B | reserved0C0F | reserved101F | reserved203F | reserved407F | reserved80FF =>
      cases h
      exact .reserved rfl
  · intro h
    cases h with
    | nop | clock | outbit | keyclr | keybyte | frame | run | clrerr => rfl
    | setup hk | generate hk => exact if_pos ((keyLengthOk_iff s).mpr hk)
    | setupRejected hk | generateRejected hk => exact if_neg (mt (keyLengthOk_iff s).mp hk)
    | read hv | readReserved hv => simp [exec, execRead, hv]
    | reserved hi => exact exec_of_isReserved s hi

/-- Every command answers a next state. -/
theorem exists_executes (i : Instr) (s : State) : ∃ t, Executes s i t := by
  cases i with
  | nop => exact ⟨_, .nop⟩
  | clock f l => exact ⟨_, .clock f l⟩
  | outbit => exact ⟨_, .outbit⟩
  | keyclr => exact ⟨_, .keyclr⟩
  | keybyte b => exact ⟨_, .keybyte b⟩
  | frame n => exact ⟨_, .frame n⟩
  | run => exact ⟨_, .run⟩
  | clrerr => exact ⟨_, .clrerr⟩
  | setup => exact (em (s.keycnt = 8)).elim (fun hk => ⟨_, .setup hk⟩) (fun hk => ⟨_, .setupRejected hk⟩)
  | generate => exact (em (s.keycnt = 8)).elim (fun hk => ⟨_, .generate hk⟩) (fun hk => ⟨_, .generateRejected hk⟩)
  | read sel =>
    cases hv : selRead s sel with
    | none => exact ⟨_, .readReserved hv⟩
    | some v => exact ⟨_, .read hv⟩
  | reserved0B | reserved0C0F | reserved101F | reserved203F | reserved407F | reserved80FF =>
    exact ⟨_, .reserved rfl⟩

/-! ## What an edge of a busy block can answer -/

/-- An edge of the sequence in progress takes the state `s` to the state `t`: one case per phase, two for RUNB. -/
inductive SequencerEdge (s : State) : State → Prop
  /-- R291. -/
  | loadKey (hp : s.phase = .loadKey) (hc : s.cnt.toNat ≤ 63) : SequencerEdge s (advanceCount 63 .loadFrame
      (setCipher (loadCycle s.params.clkTaps s.cipher false (s.key.getLsbD s.cnt.toNat)) s))
  /-- R292. -/
  | loadFrame (hp : s.phase = .loadFrame) (hc : s.cnt.toNat ≤ 21) : SequencerEdge s (advanceCount 21 .diffuse
      (setCipher (loadCycle s.params.clkTaps s.cipher (s.cnt.toNat == 21) (s.frame.getLsbD s.cnt.toNat)) s))
  /-- R293. -/
  | diffuse (hp : s.phase = .diffuse) (hc : s.cnt.toNat ≤ 99) : SequencerEdge s (advanceCount 99 .prime
      (setCipher (clock s.params.clkTaps s.cipher false false) s))
  /-- R294. -/
  | prime (hp : s.phase = .prime) : SequencerEdge s { s with
      cipher := { s.cipher with delay := combine s.params.r2Out s.cipher }
      phase := if s.chain then .runA else .idle, cnt := 0, chain := s.chain && s.chainHeld }
  /-- R321. -/
  | runA (hp : s.phase = .runA) (hc : s.cnt.toNat ≤ 113) : SequencerEdge s (advanceCount 113 .runB
      { setCipher (runCycle s.params s.cipher).2 s with
        sa := setBit s.sa s.cnt.toNat (runCycle s.params s.cipher).1 })
  /-- R321, before the last cycle. -/
  | runBMid (hp : s.phase = .runB) (hc : s.cnt.toNat < 113) : SequencerEdge s { s with
      cipher := (runCycle s.params s.cipher).2, sb := setBit s.sb s.cnt.toNat s.cipher.delay, cnt := s.cnt + 1 }
  /-- R321, the last cycle. -/
  | runBLast (hp : s.phase = .runB) (hc : s.cnt.toNat = 113) : SequencerEdge s { s with
      cipher := (runCycle s.params s.cipher).2, sb := setBit s.sb 113 s.cipher.delay, phase := .idle, cnt := 0
      chain := false, ksValid := true }

/-- `SequencerEdge` is what `sequencerStep` answers of a busy block. -/
theorem sequencerStep_eq_next_iff {s t : State} (busy : s.phase ≠ .idle) :
    sequencerStep s = .next t ↔ SequencerEdge s t := by
  constructor
  · intro h
    unfold sequencerStep at h
    cases hp : s.phase <;> simp only [hp] at h
    case idle => exact absurd hp busy
    case loadKey => obtain ⟨hc, rfl⟩ := loadKeyEdge_eq_next_iff.mp h; exact .loadKey hp hc
    case loadFrame => obtain ⟨hc, rfl⟩ := loadFrameEdge_eq_next_iff.mp h; exact .loadFrame hp hc
    case diffuse => obtain ⟨hc, rfl⟩ := diffuseEdge_eq_next_iff.mp h; exact .diffuse hp hc
    case prime => cases (primeEdge_eq s).symm.trans h; exact .prime hp
    case runA => obtain ⟨hc, rfl⟩ := runAEdge_eq_next_iff.mp h; exact .runA hp hc
    case runB =>
      obtain ⟨hc, rfl⟩ | ⟨hc, rfl⟩ := runBEdge_next_cases h
      · exact .runBMid hp hc
      · exact .runBLast hp hc
  · intro h
    unfold sequencerStep
    cases h with
    | loadKey hp hc => simp only [hp]; exact loadKeyEdge_eq_next_iff.mpr ⟨hc, rfl⟩
    | loadFrame hp hc => simp only [hp]; exact loadFrameEdge_eq_next_iff.mpr ⟨hc, rfl⟩
    | diffuse hp hc => simp only [hp]; exact diffuseEdge_eq_next_iff.mpr ⟨hc, rfl⟩
    | prime hp => simp only [hp]; exact primeEdge_eq s
    | runA hp hc => simp only [hp]; exact runAEdge_eq_next_iff.mpr ⟨hc, rfl⟩
    | runBMid hp hc => simp only [hp, runBEdge_mid s hc]
    | runBLast hp hc => simp only [hp, runBEdge_last s hc]

/-- The three kinds of edge without reset, each with what it answers. -/
theorem edge_cases_of_noReset {p : Ports} {s t : State} (hr : p.rst = false) (h : edge p s = .next t) :
    (s.phase = .idle ∧ p.cmdValid = true ∧ Executes s (decode p.cmd) t) ∨
    (s.phase = .idle ∧ p.cmdValid = false ∧ t = s) ∨
    (s.phase ≠ .idle ∧ SequencerEdge s t) := by
  by_cases hi : s.phase = .idle
  · cases hv : p.cmdValid
    · rw [edge_idle p s hr hi hv] at h
      injection h with h
      exact .inr (.inl ⟨hi, rfl, h.symm⟩)
    · rw [edge_accept p s hr hi hv] at h
      exact .inl ⟨hi, rfl, exec_eq_next_iff.mp h⟩
  · rw [edge_busy p s hr hi] at h
    exact .inr (.inr ⟨hi, (sequencerStep_eq_next_iff hi).mp h⟩)

/-- The same three kinds of a step. -/
theorem step_cases_of_noReset {s t : State} (hr : s.portsNow.rst = false) (h : step s = .next t) :
    (s.phase = .idle ∧ s.portsNow.cmdValid = true ∧ Executes (dropSample s) (decode s.portsNow.cmd) t) ∨
    (s.phase = .idle ∧ s.portsNow.cmdValid = false ∧ t = dropSample s) ∨
    (s.phase ≠ .idle ∧ SequencerEdge (dropSample s) t) :=
  edge_cases_of_noReset hr h

/-! ## The invariant (R141, R151, R153) -/

/-- The invariant asks of an idle block `CNT = 0` and `CHAIN = 0` alone. -/
theorem inv_of_idle {s : State} (hp : s.phase = .idle) (hc : s.cnt.toNat = 0) (hch : s.chain = false) : s.Inv where
  cnt_le := by simp [hc]
  idle_chain _ := hch
  loader_key h := by simp [hp, Phase.isLoader] at h
  run_invalid h := by simp [hp, Phase.isRun] at h
  chain_generate h := by simp [hch] at h
  chain_loader h := by simp [hch] at h

theorem State.Inv.cnt_eq_zero_of_idle {s : State} (h : s.Inv) (hp : s.phase = .idle) : s.cnt.toNat = 0 :=
  Nat.le_zero.mp (by simpa [hp, Phase.lastCnt] using h.cnt_le)

/-- Two states agree in every field the invariant speaks of but `CNT` and `PHASE`. -/
structure State.SameGuards (s t : State) : Prop where
  keycnt : t.keycnt = s.keycnt
  errKeylen : t.errKeylen = s.errKeylen
  ksValid : t.ksValid = s.ksValid
  chain : t.chain = s.chain
  chainHeld : t.chainHeld = s.chainHeld

/-- The invariant goes over to a busy state with the same guards, of the same half of the sequence, whose `CNT` is in
range. -/
theorem State.Inv.of_sameGuards {s t : State} (h : s.Inv) (hg : s.SameGuards t) (hc : t.cnt.toNat ≤ t.phase.lastCnt)
    (hl : t.phase.isLoader = s.phase.isLoader) (hr : t.phase.isRun = s.phase.isRun) (busy : t.phase ≠ .idle) :
    t.Inv where
  cnt_le := hc
  idle_chain hp := absurd hp busy
  loader_key := by rw [hl, hg.keycnt, hg.errKeylen]; exact h.loader_key
  run_invalid := by rw [hr, hg.ksValid]; exact h.run_invalid
  chain_generate := by rw [hg.chain, hg.keycnt, hg.errKeylen, hg.ksValid]; exact h.chain_generate
  chain_loader := by rw [hg.chain, hg.chainHeld, hl]; exact h.chain_loader

/-- The tail of a counted edge keeps the invariant, where the next phase is of the same half of the sequence. -/
theorem State.Inv.advanceCount {s u : State} (h : s.Inv) {q next : Phase} (hp : s.phase = q)
    (hn : next ≠ .idle ∧ next.isLoader = q.isLoader ∧ next.isRun = q.isRun) (hg : s.SameGuards u)
    (hup : u.phase = s.phase) (huc : u.cnt = s.cnt) : (Machine.advanceCount q.lastCnt next u).Inv := by
  obtain ⟨hidle, hl, hr⟩ := hn
  obtain ⟨hkeycnt, herr, hks, hchain, hheld⟩ := hg
  subst hp
  have busy : s.phase ≠ .idle := by intro hi; cases next <;> simp_all [Phase.isLoader, Phase.isRun]
  have hc : u.cnt.toNat ≤ s.phase.lastCnt := huc ▸ h.cnt_le
  refine h.of_sameGuards ⟨by simpa, by simpa, by simpa, by simpa, by simpa⟩ ?_ ?_ ?_ ?_
  · rw [advanceCount_cnt_toNat _ _ _ hc (Phase.lastCnt_lt s.phase), advanceCount_phase, hup]
    split <;> omega
  · rw [advanceCount_phase, hup]; split; exacts [hl, rfl]
  · rw [advanceCount_phase, hup]; split; exacts [hr, rfl]
  · rw [advanceCount_phase, hup]; split; exacts [hidle, busy]

/-- Every edge of a busy block keeps the invariant. -/
theorem SequencerEdge.keeps_inv {s t : State} (h : SequencerEdge s t) (hs : s.Inv) : t.Inv := by
  cases h with
  | loadKey hp | loadFrame hp | diffuse hp | runA hp =>
    exact hs.advanceCount hp (by decide) ⟨rfl, rfl, rfl, rfl, rfl⟩ rfl rfl
  | prime hp =>
    have hkey := hs.loader_key (by rw [hp]; rfl)
    cases hch : s.chain with
    | false => exact inv_of_idle (by simp) rfl (by simp)
    | true =>
      obtain ⟨-, -, hks⟩ := hs.chain_generate hch
      exact {
        cnt_le := Nat.zero_le _
        idle_chain := by simp
        loader_key := fun _ => hkey
        run_invalid := fun _ => hks
        chain_generate := fun _ => hs.chain_generate hch
        chain_loader := by simp_all }
  | runBMid hp hc =>
    refine hs.of_sameGuards ⟨rfl, rfl, rfl, rfl, rfl⟩ ?_ rfl rfl (by simp [hp])
    simp only [hp, Phase.lastCnt, cnt_succ_toNat (Nat.lt_trans hc (by decide : 113 < 127))]
    exact hc
  | runBLast hp hc => exact inv_of_idle rfl rfl rfl

/-- A command that an idle block takes keeps the invariant: it leaves the block idle or starts a sequence. -/
theorem Executes.keeps_inv {i : Instr} {s t : State} (h : Executes s i t) (hp : s.phase = .idle) (hs : s.Inv) :
    t.Inv := by
  have hcnt := hs.cnt_eq_zero_of_idle hp
  have hchain := hs.idle_chain hp
  cases h with
  | nop | clock | outbit | keyclr | keybyte | frame | setupRejected | generateRejected | read | readReserved | clrerr
  | reserved => exact inv_of_idle hp hcnt hchain
  | setup hk => exact {
      cnt_le := Nat.zero_le _
      idle_chain := nofun
      loader_key := fun _ => ⟨hk, rfl⟩
      run_invalid := nofun
      chain_generate := nofun
      chain_loader := nofun }
  | run => exact {
      cnt_le := Nat.zero_le _
      idle_chain := nofun
      loader_key := nofun
      run_invalid := fun _ => rfl
      chain_generate := nofun
      chain_loader := nofun }
  | generate hk => exact {
      cnt_le := Nat.zero_le _
      idle_chain := nofun
      loader_key := fun _ => ⟨hk, rfl⟩
      run_invalid := nofun
      chain_generate := fun _ => ⟨hk, rfl, rfl⟩
      chain_loader := fun _ _ => rfl }

/-- The invariant does not speak of the host's samples. -/
theorem State.Inv.dropSample {s : State} (h : s.Inv) : (Machine.dropSample s).Inv :=
  ⟨h.cnt_le, h.idle_chain, h.loader_key, h.run_invalid, h.chain_generate, h.chain_loader⟩

theorem step_keeps_inv {s t : State} (hs : s.Inv) (h : step s = .next t) : t.Inv := by
  cases hr : s.portsNow.rst with
  | true =>
    cases (edge_reset s.portsNow (Machine.dropSample s) hr).symm.trans h
    exact inv_of_idle rfl rfl rfl
  | false =>
    rcases step_cases_of_noReset hr h with ⟨hp, -, hx⟩ | ⟨-, -, rfl⟩ | ⟨-, he⟩
    · exact hx.keeps_inv hp hs.dropSample
    · exact hs.dropSample
    · exact he.keeps_inv hs.dropSample

/-- The invariant holds along every run. -/
theorem runEdges_keeps_inv {n : Nat} {s t : State} (hs : s.Inv) (h : runEdges n s = .next t) : t.Inv := by
  induction n generalizing s with
  | zero =>
    injection h with h
    exact h ▸ hs
  | succ n ih =>
    cases hstep : step s with
    | next u => exact ih (step_keeps_inv hs hstep) ((runEdges_succ n s u hstep).symm.trans h)
    | fault r => simp [runEdges, hstep] at h
    | refused r => simp [runEdges, hstep] at h

/-- Settles O51: an idle block with `CNT` and `CHAIN` 0. -/
theorem invariantHoldsAtReset : Obligations.InvariantHoldsAtReset := inv_of_idle rfl rfl rfl

/-- Settles O52, from what a reset edge, a command, an idle edge and an edge of the sequencer each keep. -/
theorem stepKeepsTheInvariant : Obligations.StepKeepsTheInvariant := fun _ _ hs h => step_keeps_inv hs h

end Sys2Proof.Machine

/-! The single rules of file 10_state.md: what one edge writes and what it leaves, the key bytes, the status word. -/

namespace Sys2Proof

/-! ## The opcode of a decoded word -/

theorem opcode_decodeReserved (op : Byte) (h : 0x0B ≤ op.toNat) : (decodeReserved op).opcode = op := by
  unfold decodeReserved
  by_cases h0B : op.toNat < 0x0C
  · have h11 : op.toNat = 0x0B := Nat.le_antisymm (Nat.le_of_lt_succ h0B) h
    rw [if_pos h0B]
    exact BitVec.eq_of_toNat_eq h11.symm
  · rw [if_neg h0B]
    split_ifs <;> rfl

/-- A decoded command has the opcode of its word (30_encoding.md R192, R197). -/
theorem opcode_decode (op : Byte) (d : Word) : (decode (op ++ d)).opcode = op := by
  by_cases h : 0x0B ≤ op.toNat
  · rw [decode_reserved op d h, opcode_decodeReserved op h]
  · have hop : op = BitVec.ofNat 8 op.toNat := by simp
    unfold decode
    rw [opField_append]
    generalize op.toNat = n at h hop
    subst hop
    interval_cases n <;> rfl

/-- Opcode 0x04 is `KEYBYTE` (R197). -/
theorem decode_keybyte (d : Word) : decode ((0x04 : Byte) ++ d) = .keybyte (d.extractLsb' 0 8) := by
  unfold decode
  rw [opField_append, dataField_append]
  rfl

/-- The word of a `KEYBYTE` decodes to it (R193). -/
theorem decode_encode_keybyte (b : Byte) : decode (encode (.keybyte b)) = .keybyte b := by
  have hlow : ((0 : BitVec 24) ++ b).extractLsb' 0 8 = b := by
    apply BitVec.eq_of_getLsbD_eq
    intro i hi
    simp only [BitVec.getLsbD_extractLsb', BitVec.getLsbD_append]
    simp [hi]
  exact (decode_keybyte _).trans (congrArg Instr.keybyte hlow)

end Sys2Proof

namespace Sys2Proof.Machine

/-! ## What a command writes -/

section
variable {i : Instr} {s t : State}

/-- Only `KEYCLR` and `KEYBYTE` write `KEY` and `KEYCNT` (R125, R126). -/
theorem Executes.opcode_of_key_ne (h : Executes s i t) (hne : t.key ≠ s.key ∨ t.keycnt ≠ s.keycnt) :
    i.opcode = 0x03 ∨ i.opcode = 0x04 := by
  cases h with
  | keyclr => exact .inl rfl
  | keybyte b => exact .inr rfl
  | _ => simp at hne

/-- Only `FRAME` writes `FRAME` (R127). -/
theorem Executes.opcode_of_frame_ne (h : Executes s i t) (hne : t.frame ≠ s.frame) : i.opcode = 0x05 := by
  cases h with
  | frame n => rfl
  | _ => simp at hne

/-- No command writes the streams (R128). -/
theorem Executes.streams (h : Executes s i t) : t.sa = s.sa ∧ t.sb = s.sb := by cases h <;> exact ⟨rfl, rfl⟩

/-- Only `READ` and `OUTBIT` write `RDATA` (R129). -/
theorem Executes.opcode_of_rdata_ne (h : Executes s i t) (hne : t.rdata ≠ s.rdata) :
    i.opcode = 0x09 ∨ i.opcode = 0x02 := by
  cases h with
  | read hv => exact .inl rfl
  | outbit => exact .inr rfl
  | _ => simp at hne

/-- Only `OUTBIT` writes `DELAY` (R123). -/
theorem Executes.opcode_of_delay_ne (h : Executes s i t) (hne : t.cipher.delay ≠ s.cipher.delay) :
    i.opcode = 0x02 := by
  cases h with
  | outbit => rfl
  | _ => simp at hne

/-- Two cipher states differ in one of `R1`-`R4`. -/
def Cipher.LfsrsDiffer (c d : Cipher) : Prop := c.r1 ≠ d.r1 ∨ c.r2 ≠ d.r2 ∨ c.r3 ≠ d.r3 ∨ c.r4 ≠ d.r4

/-- Only `CLOCK`, and the loader's start with a key of eight bytes, write `R1`-`R4` (R122, 42_loader.md R290). -/
theorem Executes.opcode_of_lfsrsDiffer (h : Executes s i t) (hne : t.cipher.LfsrsDiffer s.cipher) :
    i.opcode = 0x01 ∨ (i.opcode = 0x06 ∨ i.opcode = 0x08) ∧ s.keycnt = 8 ∧ t.cipher = zeroLfsrs s.cipher := by
  cases h with
  | clock f l => exact .inl rfl
  | setup hk => exact .inr ⟨.inl rfl, hk, rfl⟩
  | generate hk => exact .inr ⟨.inr rfl, hk, rfl⟩
  | _ => simp [Cipher.LfsrsDiffer] at hne

end

/-! ## What an edge of a busy block writes -/

section
variable {s t : State}

/-- Two states agree in the fields of the block that only a command or a reset writes. -/
structure State.SameCommandFields (s t : State) : Prop where
  key : t.key = s.key
  keycnt : t.keycnt = s.keycnt
  frame : t.frame = s.frame
  rdata : t.rdata = s.rdata
  errKeylen : t.errKeylen = s.errKeylen
  errCmd : t.errCmd = s.errCmd

theorem SequencerEdge.sameCommandFields (h : SequencerEdge s t) : s.SameCommandFields t := by
  cases h <;> constructor <;> simp

/-- A sequencer edge writes bits of `SA` in RUNA alone, at position `CNT` (R128, 43_keystream.md R321). -/
theorem SequencerEdge.of_sa_ne (h : SequencerEdge s t) {j : Nat} (hne : t.sa.getLsbD j ≠ s.sa.getLsbD j) :
    s.phase = .runA ∧ j = s.cnt.toNat := by
  cases h with
  | runA hp _ =>
    refine ⟨hp, ?_⟩
    by_contra hj
    simp [setBit_getLsbD, hj] at hne
  | _ => simp at hne

/-- A sequencer edge writes bits of `SB` in RUNB alone, at position `CNT` (R128, R321). -/
theorem SequencerEdge.of_sb_ne (h : SequencerEdge s t) {j : Nat} (hne : t.sb.getLsbD j ≠ s.sb.getLsbD j) :
    s.phase = .runB ∧ j = s.cnt.toNat := by
  cases h with
  | runBMid hp hc | runBLast hp hc =>
    refine ⟨hp, ?_⟩
    by_contra hj
    simp_all [setBit_getLsbD]
  | _ => simp at hne

/-- A sequencer edge writes `DELAY` in PRIME, RUNA and RUNB alone (R123). -/
theorem SequencerEdge.of_delay_ne (h : SequencerEdge s t) (hne : t.cipher.delay ≠ s.cipher.delay) :
    s.phase = .prime ∨ s.phase = .runA ∨ s.phase = .runB := by
  cases h with
  | loadKey | loadFrame | diffuse => simp [loadCycle] at hne
  | prime hp => exact .inl hp
  | runA hp => exact .inr (.inl hp)
  | runBMid hp | runBLast hp => exact .inr (.inr hp)

/-- A sequencer edge writes `R1`-`R4` in every phase but PRIME (R122). -/
theorem SequencerEdge.of_lfsrsDiffer (h : SequencerEdge s t) (hne : t.cipher.LfsrsDiffer s.cipher) :
    s.phase = .loadKey ∨ s.phase = .loadFrame ∨ s.phase = .diffuse ∨ s.phase = .runA ∨ s.phase = .runB := by
  cases h with
  | prime => simp [Cipher.LfsrsDiffer] at hne
  | loadKey hp | loadFrame hp | diffuse hp | runA hp | runBMid hp | runBLast hp => simp [hp]

/-- `KS_VALID` rises at the last RUNB edge and changes at no other edge of the sequencer (R153). -/
theorem SequencerEdge.ksValid_eq (h : SequencerEdge s t) :
    t.ksValid = if s.phase = .runB ∧ s.cnt = 113 then true else s.ksValid := by
  cases h with
  | loadKey hp | loadFrame hp | diffuse hp | prime hp | runA hp => simp [hp]
  | runBMid hp hc =>
    have hcnt : s.cnt ≠ 113 := by rintro h; simp [h] at hc
    rw [if_neg fun h => hcnt h.2]
  | runBLast hp hc =>
    have hcnt : s.cnt = 113 := BitVec.eq_of_toNat_eq hc
    simp [hp, hcnt]

end

/-! ## `KEY` is read in LOADKEY alone (R125) -/

section
variable {s t : State} (k : BitVec 64)

/-- A command run with another `KEY` answers the same but for `KEY`. -/
theorem Executes.withKey {i : Instr} (h : Executes s i t) :
    ∃ k', Executes { s with key := k } i { t with key := k' } := by
  cases h with
  | nop => exact ⟨k, .nop⟩
  | clock f l => exact ⟨k, .clock f l⟩
  | outbit => exact ⟨k, .outbit⟩
  | keyclr => exact ⟨0, .keyclr⟩
  | keybyte b => exact ⟨_, .keybyte b⟩
  | frame n => exact ⟨k, .frame n⟩
  | setup hk => exact ⟨k, .setup hk⟩
  | setupRejected hk => exact ⟨k, .setupRejected hk⟩
  | run => exact ⟨k, .run⟩
  | generate hk => exact ⟨k, .generate hk⟩
  | generateRejected hk => exact ⟨k, .generateRejected hk⟩
  | read hv => exact ⟨k, .read (s := { s with key := k }) hv⟩
  | readReserved hv => exact ⟨k, .readReserved (s := { s with key := k }) hv⟩
  | clrerr => exact ⟨k, .clrerr⟩
  | reserved hi => exact ⟨k, .reserved hi⟩

/-- An edge of a busy block in another phase than LOADKEY, run with another `KEY`, answers the same but for `KEY`. -/
theorem SequencerEdge.withKey (h : SequencerEdge s t) (hp : s.phase ≠ .loadKey) :
    SequencerEdge { s with key := k } { t with key := k } := by
  cases h with
  | loadKey hp' => exact absurd hp' hp
  | loadFrame hp hc => rw [← advanceCount_withKey]; exact .loadFrame (s := { s with key := k }) hp hc
  | diffuse hp hc => rw [← advanceCount_withKey]; exact .diffuse (s := { s with key := k }) hp hc
  | prime hp => exact .prime (s := { s with key := k }) hp
  | runA hp hc => rw [← advanceCount_withKey]; exact .runA (s := { s with key := k }) hp hc
  | runBMid hp hc => exact .runBMid (s := { s with key := k }) hp hc
  | runBLast hp hc => exact .runBLast (s := { s with key := k }) hp hc

end

/-! ## Entering a key (R125, R126, 20_memory.md R163) -/

/-- An idle block whose host presents a word runs the decoded command (30_encoding.md R191, R196). -/
theorem step_presentPorts {s : State} {w : CmdWord} {rest : List Ports} (hp : s.phase = .idle)
    (hin : s.inputs = presentPorts w :: rest) : step s = exec (decode w) { s with inputs := rest } := by
  have hnow : s.portsNow = presentPorts w := by rw [State.portsNow, hin]; rfl
  have hdrop : dropSample s = { s with inputs := rest } := by rw [dropSample, hin]; rfl
  rw [step, hnow, hdrop, edge_accept _ { s with inputs := rest } rfl hp rfl, presentPorts_cmd]

/-- `KEYCNT` is 8 exactly as a number. -/
theorem keycnt_eq_eight_iff (k : BitVec 4) : k = 8 ↔ k.toNat = 8 := BitVec.toNat_inj.symm

/-- One entry of a list with an element added at its end. -/
theorem getD_getElem?_concat (bs : List Byte) (b : Byte) (j : Nat) :
    (bs ++ [b])[j]?.getD 0 = if j = bs.length then b else bs[j]?.getD 0 := by
  rcases Nat.lt_trichotomy j bs.length with h | rfl | h
  · rw [List.getElem?_append_left h, if_neg (Nat.ne_of_lt h)]
  · simp
  · rw [List.getElem?_eq_none (by simpa using h), List.getElem?_eq_none (Nat.le_of_lt h), if_neg (Nat.ne_of_gt h)]

/-- `KEYCLR` and a list of `KEYBYTE`s: what stands in `KEY` and `KEYCNT`, by induction on the list from its end, with
any samples after them. -/
theorem runEdges_keyEntry {s : State} (hp : s.phase = .idle) (bs : List Byte) (rest : List Ports)
    (hin : s.inputs = presentPorts (encode .keyclr) ::
      ((bs.map fun b => presentPorts (encode (.keybyte b))) ++ rest)) :
    ∃ t, runEdges (bs.length + 1) s = .next t ∧
      t = { s with key := t.key, keycnt := t.keycnt, inputs := rest } ∧
      t.keycnt.toNat = min bs.length 15 ∧
      ∀ i, i < 64 → t.key.getLsbD i = (bs[i / 8]?.getD 0).getLsbD (i % 8) := by
  induction bs using List.reverseRecOn generalizing rest with
  | nil =>
    have hstep : step s = .next { s with key := 0, keycnt := 0, inputs := rest } :=
      (step_presentPorts hp hin).trans (by rw [show decode (encode .keyclr) = .keyclr by decide]; rfl)
    exact ⟨_, runEdges_one s _ hstep, rfl, rfl, by simp⟩
  | append_singleton bs b ih =>
    obtain ⟨u, hrun, hu, hcnt, hkey⟩ := ih (presentPorts (encode (.keybyte b)) :: rest) (by simpa using hin)
    have hup : u.phase = .idle := by rw [hu]; exact hp
    have hstep := step_presentPorts (w := encode (.keybyte b)) (rest := rest) hup (by rw [hu])
    rw [decode_encode_keybyte] at hstep
    refine ⟨_, by simpa using runEdges_snoc hrun hstep, ?_, ?_, ?_⟩
    · rw [hu]
    · rw [bumpKeycnt_toNat]
      simp [hcnt]; omega
    · intro i hi
      rw [getD_getElem?_concat]
      by_cases h8 : bs.length < 8
      · have hn : u.keycnt.toNat = bs.length := by omega
        simp only [hn, h8, if_true, setKeyByte_getLsbD _ _ _ _ hi, hkey i hi]
        split <;> rfl
      · rw [if_neg (by omega : ¬u.keycnt.toNat < 8), if_neg (by omega : ¬i / 8 = bs.length), hkey i hi]

/-! ## The status word (R150) -/

/-- Every bit of the status word, by the field it lies in. -/
theorem statusWord_getLsbD (s : State) (i : Nat) : (statusWord s).getLsbD i =
    if i < 1 then (BitVec.ofBool (busy s)).getLsbD i
    else if i < 2 then (BitVec.ofBool s.errKeylen).getLsbD (i - 1)
    else if i < 3 then (BitVec.ofBool s.errCmd).getLsbD (i - 2)
    else if i < 4 then (BitVec.ofBool s.ksValid).getLsbD (i - 3)
    else if i < 8 then s.keycnt.getLsbD (i - 4)
    else if i < 11 then (phaseCode s.phase).getLsbD (i - 8)
    else if i < 12 then (BitVec.ofBool s.chain).getLsbD (i - 11)
    else if i < 19 then s.cnt.getLsbD (i - 12)
    else false := by
  have place (m k : Nat) : (i - m < k + 1) = (i < m + (k + 1)) := propext (by omega)
  unfold statusWord
  simp only [BitVec.getLsbD_append]
  simp only [Nat.sub_sub, place, Nat.reduceAdd, BitVec.ofNat_eq_ofNat, BitVec.getLsbD_zero]

/-- The five one-bit fields of the status word. -/
theorem statusWord_bits (s : State) :
    (statusWord s).getLsbD 0 = decide (s.phase ≠ .idle) ∧ (statusWord s).getLsbD 1 = s.errKeylen ∧
    (statusWord s).getLsbD 2 = s.errCmd ∧ (statusWord s).getLsbD 3 = s.ksValid ∧
    (statusWord s).getLsbD 11 = s.chain := by
  have hbusy : busy s = decide (s.phase ≠ .idle) := by simp only [busy, bne, decide_not]; rfl
  simp only [statusWord_getLsbD, hbusy]
  simp

/-- The wider fields of the status word, and the zeros above them. -/
theorem statusWord_fields (s : State) :
    (statusWord s).extractLsb' 4 4 = s.keycnt ∧ (statusWord s).extractLsb' 8 3 = phaseCode s.phase ∧
    (statusWord s).extractLsb' 12 7 = s.cnt ∧ (statusWord s).extractLsb' 19 13 = 0 := by
  refine ⟨?_, ?_, ?_, ?_⟩ <;>
  · apply BitVec.eq_of_getLsbD_eq
    intro i hi
    rw [BitVec.getLsbD_extractLsb', statusWord_getLsbD]
    grind

/-! ## The statements -/

/-- Settles O18: the byte written by `setKeyByte`, the count by `bumpKeycnt`. -/
theorem keybyteAppendsOneByte : Obligations.KeybyteAppendsOneByte := by
  intro s b
  refine ⟨_, rfl, rfl, bumpKeycnt_toNat s.keycnt, fun i hi => ?_⟩
  by_cases h8 : s.keycnt.toNat < 8
  · simp [h8, setKeyByte_getLsbD _ _ _ _ hi]
  · simp [h8]

/-- Settles O27, from the induction over the entered bytes. -/
theorem keyEntryStoresEightBytesAndCountsAll : Obligations.KeyEntryStoresEightBytesAndCountsAll := by
  intro s bs rest hp hin
  obtain ⟨t, hrun, ht, hcnt, hkey⟩ := runEdges_keyEntry hp bs rest hin
  refine ⟨t, hrun, ht, hcnt, ?_, hkey⟩
  rw [keycnt_eq_eight_iff, hcnt]
  omega

/-- Settles O30: one field of `resetBlock` after the other. -/
theorem resetEdgeGivesTheResetState : Obligations.ResetEdgeGivesTheResetState := by
  intro s p hr
  have hready : s.cmdReady p.rst = false := by simp [State.cmdReady, hr]
  have hstatus : statusWord (resetBlock s) = 0 := show statusWord State.reset = 0 by decide
  exact ⟨_, edge_reset p s hr, rfl, rfl, rfl, rfl, rfl, rfl, rfl, rfl, rfl, rfl, rfl, rfl, rfl, rfl, rfl, rfl,
    hready, hstatus⟩

/-- Settles O38, by the equation of the PRIME edge. -/
theorem primeEdgeFillsTheDelay : Obligations.PrimeEdgeFillsTheDelay := by
  intro s p hp hr
  rw [edge_busy p s hr (by simp [hp]), ← primeEdge_eq]
  simp [sequencerStep, hp]

/-- Settles O55, case by case of the edge. -/
theorem onlyLoadKeyReadsTheKey : Obligations.OnlyLoadKeyReadsTheKey := by
  intro s t k hp h
  have hstep : step { s with key := k } = edge s.portsNow { dropSample s with key := k } := rfl
  rw [hstep]
  cases hr : s.portsNow.rst with
  | true =>
    cases (edge_reset _ _ hr).symm.trans h
    exact ⟨0, edge_reset _ _ hr⟩
  | false =>
    rcases step_cases_of_noReset hr h with ⟨hi, hv, hx⟩ | ⟨hi, hv, rfl⟩ | ⟨hi, he⟩
    · obtain ⟨k', hx'⟩ := hx.withKey k
      exact ⟨k', (edge_accept _ { dropSample s with key := k } hr hi hv).trans (exec_eq_next_iff.mpr hx')⟩
    · exact ⟨k, edge_idle _ _ hr hi hv⟩
    · exact ⟨k, (edge_busy _ { dropSample s with key := k } hr hi).trans
        ((sequencerStep_eq_next_iff (s := { dropSample s with key := k }) hi).mpr (he.withKey k hp))⟩

/-- Settles O56, from what commands and sequencer edges write. -/
theorem onlyKeyAndFrameCommandsWriteThem : Obligations.OnlyKeyAndFrameCommandsWriteThem := by
  intro s t h hr
  rcases step_cases_of_noReset hr h with ⟨hi, hv, hx⟩ | ⟨hi, hv, rfl⟩ | ⟨hi, he⟩
  · have hop : (decode s.portsNow.cmd).opcode = s.portsNow.cmdOp := opcode_decode _ _
    exact ⟨fun hne => ⟨hi, hv, hop ▸ hx.opcode_of_key_ne hne⟩, fun hne => ⟨hi, hv, hop ▸ hx.opcode_of_frame_ne hne⟩⟩
  · simp
  · obtain ⟨hkey, hkeycnt, hframe, -⟩ := he.sameCommandFields
    simp [hkey, hkeycnt, hframe]

/-- Settles O57: no command writes a stream, and a sequencer edge writes one bit. -/
theorem onlyEngineEdgesWriteTheStreams : Obligations.OnlyEngineEdgesWriteTheStreams := by
  intro s t h hr j
  rcases step_cases_of_noReset hr h with ⟨-, -, hx⟩ | ⟨-, -, rfl⟩ | ⟨-, he⟩
  · obtain ⟨hsa, hsb⟩ := hx.streams
    simp [hsa, hsb]
  · simp
  · exact ⟨fun hne => he.of_sa_ne hne, fun hne => he.of_sb_ne hne⟩

/-- Settles O58, from what commands and sequencer edges write. -/
theorem onlyNamedEventsWriteRdataAndCipher : Obligations.OnlyNamedEventsWriteRdataAndCipher := by
  intro s t h hr
  rcases step_cases_of_noReset hr h with ⟨hi, hv, hx⟩ | ⟨hi, hv, rfl⟩ | ⟨hi, he⟩
  · have hop : (decode s.portsNow.cmd).opcode = s.portsNow.cmdOp := opcode_decode _ _
    exact ⟨fun hne => ⟨hi, hv, hop ▸ hx.opcode_of_rdata_ne hne⟩,
      fun hne => .inl ⟨hi, hv, hop ▸ hx.opcode_of_delay_ne hne⟩,
      fun hne => .inl ⟨hi, hv, hop ▸ hx.opcode_of_lfsrsDiffer hne⟩⟩
  · simp
  · exact ⟨fun hne => absurd he.sameCommandFields.rdata hne, fun hne => .inr (he.of_delay_ne hne),
      fun hne => .inr (he.of_lfsrsDiffer hne)⟩

/-- Settles O59, case by case of the edge and of the command. -/
theorem flagsChangeExactlyAsStated : Obligations.FlagsChangeExactlyAsStated := by
  intro s t p h
  refine ⟨fun hr => ?_, fun hr => ?_⟩
  · cases (edge_reset p s hr).symm.trans h
    exact ⟨rfl, rfl, rfl⟩
  rcases edge_cases_of_noReset hr h with ⟨hi, hv, hx⟩ | ⟨hi, hv, rfl⟩ | ⟨hi, he⟩
  · simp only [hi, hv, and_self, if_true]
    change Executes s (decode (p.cmdOp ++ p.cmdData)) t at hx
    generalize decode (p.cmdOp ++ p.cmdData) = i at hx ⊢
    cases hx with
    | nop | clock | outbit | keyclr | keybyte | frame | run | clrerr => exact ⟨rfl, rfl, rfl⟩
    | setup hk => exact ⟨(decide_eq_false (not_not_intro hk)).symm, rfl, rfl⟩
    | setupRejected hk => exact ⟨(decide_eq_true hk).symm, rfl, rfl⟩
    | generate hk => exact ⟨(decide_eq_false (not_not_intro hk)).symm, rfl, (if_pos hk).symm⟩
    | generateRejected hk => exact ⟨(decide_eq_true hk).symm, rfl, (if_neg hk).symm⟩
    | read hv | readReserved hv => simp [hv]
    | reserved hi => cases i <;> simp_all [Instr.isReserved]
  · simp [hi, hv]
  · obtain ⟨-, -, -, -, herrKeylen, herrCmd⟩ := he.sameCommandFields
    simp only [hi, false_and, if_false]
    exact ⟨herrKeylen, herrCmd, he.ksValid_eq⟩

/-- Settles O33: the one-bit fields, then the wider ones, each read off the concatenation. -/
theorem statusWordLayout : Obligations.StatusWordLayout := by
  refine ⟨fun s => ?_, rfl, rfl, rfl, rfl, rfl, rfl, rfl, fun s => ⟨rfl, rfl⟩⟩
  obtain ⟨hbusy, herrKeylen, herrCmd, hksValid, hchain⟩ := statusWord_bits s
  obtain ⟨hkeycnt, hphase, hcnt, hzero⟩ := statusWord_fields s
  exact ⟨hbusy, herrKeylen, herrCmd, hksValid, hkeycnt, hphase, hchain, hcnt, hzero⟩

end Sys2Proof.Machine

/-! The timeline of file 10_state.md's sequencer (R140, R141) and the run of a command along it (70_reset_and_hazards.md
R420): where one edge of a busy block takes `PHASE` and `CNT`, that R420's timeline follows these edges, and, by
induction over the edges, that a run of every command does. -/

namespace Sys2Proof.Machine

/-! ## Where an edge of a busy block leads -/

/-- The phase after the last edge of a phase; a sequence goes on from PRIME where `CHAIN` is set (R140, R294, R321). -/
def Phase.after (chained : Bool) : Phase → Phase
  | .idle => .idle
  | .loadKey => .loadFrame
  | .loadFrame => .diffuse
  | .diffuse => .prime
  | .prime => if chained then .runA else .idle
  | .runA => .runB
  | .runB => .idle

/-- `PHASE` and `CNT` together. -/
def State.place (s : State) : Phase × Nat := (s.phase, s.cnt.toNat)

/-- The place after an edge at a given place: the next value of `CNT`, or the start of the next phase (R141). -/
def nextPlace (chained : Bool) (x : Phase × Nat) : Phase × Nat :=
  if x.2 = x.1.lastCnt then (x.1.after chained, 0) else (x.1, x.2 + 1)

/-- The tail of a counted edge goes to the next place. -/
theorem advanceCount_place {s u : State} {q next : Phase} (hp : s.phase = q) (hup : u.phase = s.phase)
    (huc : u.cnt = s.cnt) (hc : s.cnt.toNat ≤ s.phase.lastCnt) (hn : q.after s.chain = next) :
    (advanceCount q.lastCnt next u).place = nextPlace s.chain s.place := by
  subst hp hn
  rw [State.place, advanceCount_phase, advanceCount_cnt_toNat _ _ _ (huc ▸ hc) (Phase.lastCnt_lt _), huc, hup,
    nextPlace, State.place]
  split <;> rfl

/-- An edge of a busy block with `CNT` in its phase's range goes to the next place. -/
theorem SequencerEdge.place_eq {s t : State} (h : SequencerEdge s t) (hc : s.cnt.toNat ≤ s.phase.lastCnt) :
    t.place = nextPlace s.chain s.place := by
  cases h with
  | loadKey hp | loadFrame hp | diffuse hp | runA hp => exact advanceCount_place hp rfl rfl hc rfl
  | prime hp =>
    have h0 : s.cnt.toNat = 0 := by simpa [hp, Phase.lastCnt] using hc
    simp [State.place, nextPlace, hp, h0, Phase.lastCnt, Phase.after]
  | runBMid hp hc' =>
    have hcnt : (s.cnt + 1).toNat = s.cnt.toNat + 1 := cnt_succ_toNat (by omega)
    simp only [State.place, nextPlace, hp, Phase.lastCnt, Nat.ne_of_lt hc', if_false, hcnt]
  | runBLast hp hc' => simp [State.place, nextPlace, hp, hc', Phase.lastCnt, Phase.after]

/-- `CHAIN` through a sequence that goes on (R141, log entry 6): set by a `GENERATE`, it stays in the loader, and after
it where `chainHeld` says so. -/
theorem SequencerEdge.chain_eq {s t : State} {g : Bool} (h : SequencerEdge s t)
    (hs : s.chain = (g && (s.phase.isLoader || s.chainHeld))) (busy : t.phase ≠ .idle) :
    t.chain = (g && (t.phase.isLoader || t.chainHeld)) := by
  cases h with
  | loadKey hp | loadFrame hp | diffuse hp | runA hp =>
    rw [hp] at hs
    simp only [advanceCount_chain, advanceCount_phase, advanceCount_chainHeld, setCipher_chain, setCipher_phase,
      setCipher_chainHeld, hs, hp]
    split <;> rfl
  | prime hp =>
    cases hch : s.chain with
    | false => simp [hch] at busy
    | true => simp_all [Phase.isLoader]
  | runBMid hp => exact hs
  | runBLast => exact absurd rfl busy

/-- An edge of a busy block in its range of `CNT`, with a host that does not reset. -/
theorem step_busy {s : State} (busy : s.phase ≠ .idle) (hr : s.portsNow.rst = false)
    (hc : s.cnt.toNat ≤ s.phase.lastCnt) : ∃ t, step s = .next t ∧ SequencerEdge (dropSample s) t := by
  obtain ⟨t, ht⟩ := sequencerStep_next (dropSample s) hc
  exact ⟨t, (edge_busy s.portsNow (dropSample s) hr busy).trans ht,
    (sequencerStep_eq_next_iff (s := dropSample s) busy).mp ht⟩

/-! ## R420's timeline follows the edges -/

theorem nextPlace_loaderAt {k : Nat} (chained : Bool) (h1 : 1 ≤ k) (hk : k < 187) :
    nextPlace chained (loaderAt k) = loaderAt (k + 1) := by
  unfold nextPlace loaderAt
  split_ifs <;> simp_all [Phase.lastCnt, Phase.after] <;> omega

theorem nextPlace_engineAt {k : Nat} (chained : Bool) (hk : k < 227) :
    nextPlace chained (engineAt k) = engineAt (k + 1) := by
  unfold nextPlace engineAt
  split_ifs <;> simp_all [Phase.lastCnt, Phase.after] <;> omega

theorem loaderAt_inRange (k : Nat) :
    (loaderAt k).1.isLoader = true ∧ (loaderAt k).2 ≤ (loaderAt k).1.lastCnt := by
  unfold loaderAt
  split_ifs <;> simp [Phase.isLoader, Phase.lastCnt] <;> omega

theorem engineAt_inRange {k : Nat} (hk : k ≤ 227) :
    (engineAt k).1.isRun = true ∧ (engineAt k).2 ≤ (engineAt k).1.lastCnt := by
  unfold engineAt
  split_ifs <;> simp [Phase.isRun, Phase.lastCnt] <;> omega

/-- A command takes one edge, or is a `SETUP`, `RUN` or `GENERATE` that starts a sequence. -/
theorem edgesOf_cases (i : Instr) (keycnt : BitVec 4) :
    edgesOf i keycnt = 1 ∨ (i = .setup ∧ keycnt = 8 ∧ edgesOf i keycnt = 188) ∨
      (i = .run ∧ edgesOf i keycnt = 229) ∨ (i = .generate ∧ keycnt = 8 ∧ edgesOf i keycnt = 416) := by
  cases i with
  | setup | generate => by_cases hk : keycnt = 8 <;> simp_all [edgesOf]
  | _ => simp [edgesOf]

/-- The place `k` edges after a command, on R420's timeline: in the loader, or in the keystream engine. -/
theorem timelineAt_cases {i : Instr} {keycnt : BitVec 4} {k : Nat} (h1 : 1 ≤ k) (hk : k < edgesOf i keycnt) :
    (i ≠ .run ∧ k ≤ 187 ∧ timelineAt i k = loaderAt k) ∨
    (i = .run ∧ k < 229 ∧ timelineAt i k = engineAt (k - 1)) ∨
    (i = .generate ∧ 187 < k ∧ k < 416 ∧ timelineAt i k = engineAt (k - 188)) := by
  rcases edgesOf_cases i keycnt with he | ⟨rfl, -, he⟩ | ⟨rfl, he⟩ | ⟨rfl, -, he⟩ <;> rw [he] at hk
  · omega
  · exact .inl ⟨nofun, by omega, if_pos (by omega)⟩
  · exact .inr (.inl ⟨rfl, hk, rfl⟩)
  · by_cases h187 : k ≤ 187
    · exact .inl ⟨nofun, h187, if_pos h187⟩
    · exact .inr (.inr ⟨rfl, by omega, hk, if_neg h187⟩)

/-- On the timeline the block is busy, with `CNT` in its phase's range, and in the loader exactly up to edge 187 of a
`SETUP` or `GENERATE`. -/
theorem timelineAt_inRange {i : Instr} {keycnt : BitVec 4} {k : Nat} (h1 : 1 ≤ k) (hk : k < edgesOf i keycnt) :
    (timelineAt i k).1 ≠ .idle ∧ (timelineAt i k).2 ≤ (timelineAt i k).1.lastCnt ∧
      (timelineAt i k).1.isLoader = (decide (i ≠ .run) && decide (k ≤ 187)) := by
  have loader {p : Phase} (h : p.isLoader = true) : p ≠ .idle := by rintro rfl; cases h
  have engine {p : Phase} (h : p.isRun = true) : p ≠ .idle ∧ p.isLoader = false := by
    cases p <;> simp_all [Phase.isRun, Phase.isLoader]
  rcases timelineAt_cases h1 hk with ⟨hi, h187, he⟩ | ⟨rfl, h229, he⟩ | ⟨rfl, h187, h416, he⟩ <;> rw [he]
  · obtain ⟨hl, hc⟩ := loaderAt_inRange k
    exact ⟨loader hl, hc, by simp [hl, hi, h187]⟩
  · obtain ⟨hr, hc⟩ := engineAt_inRange (show k - 1 ≤ 227 by omega)
    exact ⟨(engine hr).1, hc, by simp [(engine hr).2]⟩
  · obtain ⟨hr, hc⟩ := engineAt_inRange (show k - 188 ≤ 227 by omega)
    exact ⟨(engine hr).1, hc, by simp [(engine hr).2, h187]⟩

/-- The timeline of a command goes on from place to place, and at its end to an idle block, where in the loader `CHAIN`
marks a `GENERATE`. -/
theorem nextPlace_timelineAt {i : Instr} {keycnt : BitVec 4} {k : Nat} {chained : Bool} (h1 : 1 ≤ k)
    (hk : k < edgesOf i keycnt) (hch : k ≤ 187 → chained = decide (i = .generate)) :
    nextPlace chained (timelineAt i k) =
      if k + 1 < edgesOf i keycnt then timelineAt i (k + 1) else (.idle, 0) := by
  rcases edgesOf_cases i keycnt with he | ⟨rfl, -, he⟩ | ⟨rfl, he⟩ | ⟨rfl, -, he⟩ <;> rw [he] at hk ⊢
  · omega
  · have loader {j : Nat} (hj : j ≤ 187) : timelineAt .setup j = loaderAt j := if_pos hj
    rcases Nat.lt_or_eq_of_le (Nat.le_of_lt_succ hk) with hlt | rfl
    · rw [if_pos (by omega), loader (by omega), loader (by omega), nextPlace_loaderAt _ h1 hlt]
    · rw [hch le_rfl]
      rfl
  · obtain ⟨j, rfl⟩ := Nat.exists_eq_add_of_le' h1
    have engine (j : Nat) : timelineAt .run (j + 1) = engineAt j := rfl
    rcases Nat.lt_or_eq_of_le (show j ≤ 227 by omega) with hlt | rfl
    · rw [if_pos (by omega), engine, engine, nextPlace_engineAt _ hlt]
    · rfl
  · have loader {j : Nat} (hj : j ≤ 187) : timelineAt .generate j = loaderAt j := if_pos hj
    have engine (j : Nat) : timelineAt .generate (j + 188) = engineAt j := by simp [timelineAt]
    rcases Nat.lt_trichotomy k 187 with hlt | rfl | hgt
    · rw [if_pos (by omega), loader (by omega), loader (by omega), nextPlace_loaderAt _ h1 hlt]
    · rw [hch le_rfl]
      rfl
    · obtain ⟨j, rfl⟩ := Nat.exists_eq_add_of_le' (show 188 ≤ k from hgt)
      rcases Nat.lt_or_eq_of_le (show j ≤ 227 by omega) with hlt | rfl
      · rw [if_pos (by omega), engine, Nat.add_right_comm, engine, nextPlace_engineAt _ hlt]
      · rfl

/-! ## A command runs along its timeline -/

/-- The state `u` after `k` edges of the command `i`, accepted in state `s`, with R420's timeline in its phase and
count, and `CHAIN` as R141 and log entry 6 have it. -/
structure OnTimeline (s : State) (i : Instr) (k : Nat) (u : State) : Prop where
  run : runEdges k s = .next u
  place : u.place = timelineAt i k
  chain : u.chain = (decide (i = .generate) && (u.phase.isLoader || u.chainHeld))
  chainHeld : u.chainHeld = s.chainHeld
  inputs : u.inputs = s.inputs.drop k

section
variable {s t u : State} {i : Instr} {k : Nat}

/-- A step takes one sample and keeps `chainHeld`, `k` edges after the start too. -/
theorem OnTimeline.modelFields (h : OnTimeline s i k u) (hstep : step u = .next t) :
    t.chainHeld = s.chainHeld ∧ t.inputs = s.inputs.drop (k + 1) := by
  obtain ⟨-, hheld, hinputs⟩ := step_sameModelFields hstep
  refine ⟨hheld.trans h.chainHeld, hinputs.trans ?_⟩
  rw [dropSample_inputs, h.inputs, List.tail_drop]

/-- The accepting edge of a command that starts a sequence. -/
theorem OnTimeline.start (hx : Executes (dropSample s) i t) (hstep : step s = .next t)
    (h : 1 < edgesOf i s.keycnt) : OnTimeline s i 1 t := by
  obtain ⟨-, hheld, hinputs⟩ := step_sameModelFields hstep
  have hstart : t.place = timelineAt i 1 ∧
      t.chain = (decide (i = .generate) && (t.phase.isLoader || t.chainHeld)) := by
    rcases edgesOf_cases i s.keycnt with he | ⟨rfl, hk, -⟩ | ⟨rfl, -⟩ | ⟨rfl, hk, -⟩
    · omega
    · cases hx with
      | setup => exact ⟨rfl, rfl⟩
      | setupRejected hne => exact absurd hk hne
      | reserved hr => cases hr
    · cases hx with
      | run => exact ⟨rfl, rfl⟩
      | reserved hr => cases hr
    · cases hx with
      | generate => exact ⟨rfl, rfl⟩
      | generateRejected hne => exact absurd hk hne
      | reserved hr => cases hr
  exact ⟨runEdges_one s t hstep, hstart.1, hstart.2, hheld, by rw [hinputs, dropSample_inputs, List.drop_one]⟩

/-- The next edge on the timeline, up to the end of the command. -/
theorem OnTimeline.edge (h : OnTimeline s i k u) (h1 : 1 ≤ k) (hk : k < edgesOf i s.keycnt)
    (hn : s.NoReset (edgesOf i s.keycnt)) :
    ∃ t, step u = .next t ∧ SequencerEdge (dropSample u) t ∧
      t.place = if k + 1 < edgesOf i s.keycnt then timelineAt i (k + 1) else (.idle, 0) := by
  obtain ⟨busy, hc, hl⟩ := timelineAt_inRange h1 hk
  have hphase : u.phase = (timelineAt i k).1 := congrArg Prod.fst h.place
  have hcnt : u.cnt.toNat = (timelineAt i k).2 := congrArg Prod.snd h.place
  have hr : u.portsNow.rst = false := by
    rw [State.portsNow, h.inputs]
    exact noReset_at hn k hk
  rw [← hphase] at busy hc hl
  rw [← hcnt] at hc
  obtain ⟨t, hstep, he⟩ := step_busy busy hr hc
  refine ⟨t, hstep, he, (he.place_eq hc).trans ?_⟩
  refine (congrArg (nextPlace u.chain) h.place).trans (nextPlace_timelineAt h1 hk fun h187 => ?_)
  rw [h.chain, hl]
  by_cases hg : i = .generate <;> simp [hg, h187]

/-- The next edge before the end of the command is on the timeline. -/
theorem OnTimeline.succ (h : OnTimeline s i k u) (h1 : 1 ≤ k) (hk : k + 1 < edgesOf i s.keycnt)
    (hn : s.NoReset (edgesOf i s.keycnt)) : ∃ t, OnTimeline s i (k + 1) t := by
  obtain ⟨t, hstep, he, hplace⟩ := h.edge h1 (Nat.lt_of_succ_lt hk) hn
  rw [if_pos hk] at hplace
  obtain ⟨busy, -, -⟩ := timelineAt_inRange (Nat.le_add_left 1 k) hk
  obtain ⟨hheld, hinputs⟩ := h.modelFields hstep
  rw [← hplace] at busy
  exact ⟨t, runEdges_snoc h.run hstep, hplace, he.chain_eq h.chain busy, hheld, hinputs⟩

/-- After the last edge of the command the block is idle. -/
theorem OnTimeline.last (h : OnTimeline s i k u) (h1 : 1 ≤ k) (hk : k + 1 = edgesOf i s.keycnt)
    (hn : s.NoReset (edgesOf i s.keycnt)) : ∃ t, runEdges (edgesOf i s.keycnt) s = .next t ∧ t.phase = .idle := by
  obtain ⟨t, hstep, -, hplace⟩ := h.edge h1 (hk ▸ Nat.lt_succ_self k) hn
  rw [if_neg (by omega)] at hplace
  exact ⟨t, hk ▸ runEdges_snoc h.run hstep, congrArg Prod.fst hplace⟩

/-- A command of one edge leaves `PHASE` as it is. -/
theorem Executes.phase_of_edgesOf_eq_one (hx : Executes s i t) (h : edgesOf i s.keycnt = 1) : t.phase = s.phase := by
  cases hx with
  | setup hk | generate hk => simp [edgesOf, hk] at h
  | run => simp [edgesOf] at h
  | _ => rfl

/-- A presented command is executed by an idle block. -/
theorem step_of_presents {w : CmdWord} (hp : s.phase = .idle) (hw : s.Presents w) :
    ∃ t, step s = .next t ∧ Executes (dropSample s) (decode w) t := by
  obtain ⟨hr, hv, rfl⟩ := hw
  obtain ⟨t, hx⟩ := exists_executes (decode s.portsNow.cmd) (dropSample s)
  exact ⟨t, (edge_accept _ (dropSample s) hr hp hv).trans (exec_eq_next_iff.mpr hx), hx⟩

/-- After every edge of a command but its last the block is on the command's timeline, by induction on the edges. -/
theorem exists_onTimeline {w : CmdWord} (hp : s.phase = .idle) (hw : s.Presents w)
    (hn : s.NoReset (edgesOf (decode w) s.keycnt)) (h1 : 1 ≤ k) (hk : k < edgesOf (decode w) s.keycnt) :
    ∃ u, OnTimeline s (decode w) k u := by
  induction k, h1 using Nat.le_induction with
  | base =>
    obtain ⟨t, hstep, hx⟩ := step_of_presents hp hw
    exact ⟨t, .start hx hstep hk⟩
  | succ k h1 ih =>
    obtain ⟨u, hu⟩ := ih (Nat.lt_of_succ_lt hk)
    exact hu.succ h1 hk hn

/-- After its last edge the block is idle. -/
theorem runEdges_edgesOf {w : CmdWord} (hp : s.phase = .idle) (hw : s.Presents w)
    (hn : s.NoReset (edgesOf (decode w) s.keycnt)) :
    ∃ t, runEdges (edgesOf (decode w) s.keycnt) s = .next t ∧ t.phase = .idle := by
  by_cases h1 : edgesOf (decode w) s.keycnt = 1
  · obtain ⟨t, hstep, hx⟩ := step_of_presents hp hw
    exact ⟨t, h1 ▸ runEdges_one s t hstep, (hx.phase_of_edgesOf_eq_one h1).trans hp⟩
  · have hlt : 1 < edgesOf (decode w) s.keycnt := by
      rcases edgesOf_cases (decode w) s.keycnt with he | ⟨-, -, he⟩ | ⟨-, he⟩ | ⟨-, -, he⟩ <;> omega
    obtain ⟨u, hu⟩ := exists_onTimeline (k := edgesOf (decode w) s.keycnt - 1) hp hw hn (by omega) (by omega)
    exact hu.last (by omega) (by omega) hn

end

/-! ## The statements -/

/-- Settles O43: the command's timeline, edge by edge. -/
theorem everyCommandTakesItsStatedEdges : Obligations.EveryCommandTakesItsStatedEdges := by
  intro s w hp hw hn
  refine ⟨runEdges_edgesOf hp hw hn, fun k h1 hk => ?_⟩
  obtain ⟨u, hu⟩ := exists_onTimeline hp hw hn h1 hk
  have hphase : u.phase = (timelineAt (decode w) k).1 := congrArg Prod.fst hu.place
  obtain ⟨busy, -, -⟩ := timelineAt_inRange h1 hk
  exact ⟨u, hu.run, hphase, congrArg Prod.snd hu.place, hphase ▸ busy⟩

/-- Settles O44: `CHAIN` along the timeline; at its end the invariant has it 0. -/
theorem chainMarksAGenerate : Obligations.ChainMarksAGenerate := by
  intro s w hinv hp hw hn
  constructor
  · obtain ⟨t, hrun, hidle⟩ := runEdges_edgesOf hp hw hn
    exact ⟨t, hrun, (runEdges_keeps_inv hinv hrun).idle_chain hidle⟩
  · intro k h1 hk
    obtain ⟨u, hu⟩ := exists_onTimeline hp hw hn h1 hk
    have hphase : u.phase = (timelineAt (decode w) k).1 := congrArg Prod.fst hu.place
    obtain ⟨-, -, hl⟩ := timelineAt_inRange h1 hk
    rw [← hphase] at hl
    refine ⟨u, hu.run, ?_, fun h187 hg => by simp [hl, h187, hg]⟩
    rw [hu.chain, hl, hu.chainHeld]
    by_cases hg : decode w = .generate <;> simp [hg]

end Sys2Proof.Machine

/-! The statements about file 20_memory.md: the selector space that `READ` addresses (R161) and the packing of a stream
into bytes (R162). -/

namespace Sys2Proof.Machine

/-! ## The selector space (R161) -/

/-- The selectors of stream A. -/
theorem selRead_streamA (s : State) (j : Nat) (hj : j < 15) :
    selRead s (BitVec.ofNat 8 (0x10 + j)) = some ((streamByte s.sa j).setWidth 32) := by
  have hsel : (BitVec.ofNat 8 (0x10 + j)).toNat = 0x10 + j := Nat.mod_eq_of_lt (by omega)
  unfold selRead
  simp only [hsel, Nat.add_sub_cancel_left]
  repeat rw [if_neg (by omega)]
  exact if_pos (by omega)

/-- The selectors of stream B. -/
theorem selRead_streamB (s : State) (j : Nat) (hj : j < 15) :
    selRead s (BitVec.ofNat 8 (0x20 + j)) = some ((streamByte s.sb j).setWidth 32) := by
  have hsel : (BitVec.ofNat 8 (0x20 + j)).toNat = 0x20 + j := Nat.mod_eq_of_lt (by omega)
  unfold selRead
  simp only [hsel, Nat.add_sub_cancel_left]
  repeat rw [if_neg (by omega)]
  exact if_pos (by omega)

/-- `DELAY` as the word that selector 0x04 reads. -/
theorem selRead_delay (s : State) : selRead s 0x04 = some (if s.cipher.delay then 1 else 0) := by
  have hword (b : Bool) : (BitVec.ofBool b).setWidth 32 = if b then (1 : Word) else 0 := by cases b <;> rfl
  exact congrArg some (hword s.cipher.delay)

/-- `READ` of a selector that has a value loads it, and writes nothing else (44_host_control.md R351). -/
theorem exec_read_of_selRead {s : State} {sel : Byte} {v : Word} (hv : selRead s sel = some v) :
    exec (.read sel) s = .next { s with rdata := v } :=
  exec_eq_next_iff.mpr (.read hv)

/-- `READ` of a reserved selector raises `BadCmd`, and writes nothing else (44_host_control.md R351). -/
theorem exec_read_of_reserved {s : State} {sel : Byte} (hv : selRead s sel = none) :
    exec (.read sel) s = .next { s with errCmd := true } :=
  exec_eq_next_iff.mpr (.readReserved hv)

/-! ## The packed bytes of a stream (R162) -/

/-- Every bit of a stream can be read back from its packed bytes. -/
theorem getLsbD_eq_streamByte (v : BitVec 114) (i : Nat) :
    v.getLsbD i = (streamByte v (i / 8)).getLsbD (7 - i % 8) := by
  rw [streamByte_getLsbD _ _ _ (Nat.mod_lt i (by decide)), Nat.div_add_mod]

/-- The stream unpacked from the bytes of `v` is `v`. -/
theorem eq_of_unpacks {v w : BitVec 114}
    (h : ∀ i, i < 114 → w.getLsbD i = (streamByte v (i / 8)).getLsbD (7 - i % 8)) : w = v :=
  BitVec.eq_of_getLsbD_eq fun i hi => (h i hi).trans (getLsbD_eq_streamByte v i).symm

/-! ## The statements -/

/-- Settles O24: the register selectors by their values, the stream selectors by their windows, and every other selector
is reserved. -/
theorem readFollowsTheSelectorMap : Obligations.ReadFollowsTheSelectorMap := by
  intro s
  refine ⟨exec_read_of_selRead rfl, exec_read_of_selRead rfl, exec_read_of_selRead rfl, exec_read_of_selRead rfl,
    exec_read_of_selRead (selRead_delay s), exec_read_of_selRead rfl, exec_read_of_selRead rfl,
    fun j hj => exec_read_of_selRead (selRead_streamA s j hj),
    fun j hj => exec_read_of_selRead (selRead_streamB s j hj), fun sel hsel => ?_⟩
  have hnone : selRead s sel = none := (selRead_eq_none_iff s sel).mpr (by omega)
  exact exec_read_of_reserved hnone

/-- Settles O34: a byte's bits by `streamByte_getLsbD`, and the round trip because the bytes determine the stream. -/
theorem streamBytesArePackedMsbFirst : Obligations.StreamBytesArePackedMsbFirst := by
  intro v
  refine ⟨fun j k _ hk => ?_, fun i _ => getLsbD_eq_streamByte v i, fun w hw j _ => by rw [eq_of_unpacks hw]⟩
  rw [streamByte_getLsbD v j k hk]
  split
  · rfl
  · next hpad => exact BitVec.getLsbD_of_ge v _ (by omega)

end Sys2Proof.Machine

/-! The statements about file 30_encoding.md: the opcode map and the operand fields (R192, R193, R197), the reserved
opcodes (R195), the command handshake (R191, R196), and `ksbit` (R200). -/

namespace Sys2Proof

/-! ## The opcode map, command by command (R197) -/

section
variable (d : Word)

theorem decode_nop : decode ((0x00 : Byte) ++ d) = .nop := by simp [decode]
theorem decode_clock : decode ((0x01 : Byte) ++ d) = .clock (d.getLsbD 0) (d.getLsbD 1) := by simp [decode]
theorem decode_outbit : decode ((0x02 : Byte) ++ d) = .outbit := by simp [decode]
theorem decode_keyclr : decode ((0x03 : Byte) ++ d) = .keyclr := by simp [decode]
theorem decode_keybyte_low : decode ((0x04 : Byte) ++ d) = .keybyte (d.setWidth 8) := by
  rw [decode_keybyte, extractLsb'_zero]
theorem decode_frame : decode ((0x05 : Byte) ++ d) = .frame (d.setWidth 22) := by simp [decode, extractLsb'_zero]
theorem decode_setup : decode ((0x06 : Byte) ++ d) = .setup := by simp [decode]
theorem decode_run : decode ((0x07 : Byte) ++ d) = .run := by simp [decode]
theorem decode_generate : decode ((0x08 : Byte) ++ d) = .generate := by simp [decode]
theorem decode_read : decode ((0x09 : Byte) ++ d) = .read (d.setWidth 8) := by simp [decode, extractLsb'_zero]
theorem decode_clrerr : decode ((0x0A : Byte) ++ d) = .clrerr := by simp [decode]

end

/-! ## The reserved rows (R195) -/

/-- The reserved rows answer reserved commands, each with an opcode of its row. -/
theorem isReserved_wellFormed_decodeReserved (op : Byte) (h : 0x0B ≤ op.toNat) :
    (decodeReserved op).isReserved = true ∧ (decodeReserved op).WellFormed := by
  have hop : op.toNat < 256 := op.isLt
  unfold decodeReserved
  split_ifs <;> simp [Instr.isReserved, Instr.WellFormed, Instr.wellFormed, opcodeIn] <;> omega

/-- A word with a reserved opcode decodes to a reserved command (R195, R197). -/
theorem isReserved_decode (op : Byte) (d : Word) (h : 0x0B ≤ op.toNat) : (decode (op ++ d)).isReserved = true := by
  rw [decode_reserved op d h]
  exact (isReserved_wellFormed_decodeReserved op h).1

/-- The rows do not overlap: a well-formed reserved command is the one of its opcode's row. -/
theorem decodeReserved_opcode {i : Instr} (hr : i.isReserved = true) (hw : i.WellFormed) :
    0x0B ≤ i.opcode.toNat ∧ decodeReserved i.opcode = i := by
  cases i with
  | nop | clock | outbit | keyclr | keybyte | frame | setup | run | generate | read | clrerr => cases hr
  | reserved0B => decide
  | reserved0C0F op | reserved101F op | reserved203F op | reserved407F op | reserved80FF op =>
    obtain ⟨hlo, hhi⟩ : _ ≤ op.toNat ∧ op.toNat ≤ _ := by
      simpa [Instr.WellFormed, Instr.wellFormed, opcodeIn] using hw
    refine ⟨show 0x0B ≤ op.toNat by omega, ?_⟩
    change decodeReserved op = _
    unfold decodeReserved
    split_ifs <;> first | omega | rfl

/-! ## Decoding an encoded command (R192, R193) -/

/-- Decoding the encoded word of a well-formed command gives it back: a reserved command by its row, any other by its
field in the low bits of the operand. -/
theorem decode_encode {i : Instr} (hw : i.WellFormed) : decode (encode i) = i := by
  cases i with
  | nop => exact decode_nop _
  | clock f l => exact (decode_clock _).trans (by cases f <;> cases l <;> rfl)
  | outbit => exact decode_outbit _
  | keyclr => exact decode_keyclr _
  | keybyte b => exact decode_encode_keybyte b
  | frame n => exact (decode_frame _).trans (congrArg Instr.frame BitVec.setWidth_append_eq_right)
  | setup => exact decode_setup _
  | run => exact decode_run _
  | generate => exact decode_generate _
  | read sel => exact (decode_read _).trans (congrArg Instr.read BitVec.setWidth_append_eq_right)
  | clrerr => exact decode_clrerr _
  | reserved0B | reserved0C0F | reserved101F | reserved203F | reserved407F | reserved80FF =>
    obtain ⟨hop, hrow⟩ := decodeReserved_opcode rfl hw
    exact (decode_reserved _ _ hop).trans hrow

/-! ## The used operand bits (R193, R194) -/

/-- Two words agree under the mask of the low `n` bits exactly when their low `n` bits are the same. -/
theorem and_lowMask_eq_iff (m n : Nat) (d d' : BitVec (m + n)) :
    d &&& (BitVec.allOnes n).setWidth (m + n) = d' &&& (BitVec.allOnes n).setWidth (m + n) ↔
      d.setWidth n = d'.setWidth n := by
  rw [BitVec.and_setWidth_allOnes, BitVec.and_setWidth_allOnes, BitVec.append_right_inj]

/-- The low two bits as a pair of bits. -/
theorem setWidth_two_eq_iff (d d' : Word) :
    d.setWidth 2 = d'.setWidth 2 ↔ d.getLsbD 0 = d'.getLsbD 0 ∧ d.getLsbD 1 = d'.getLsbD 1 := by
  constructor
  · intro h
    exact ⟨by simpa using congrArg (BitVec.getLsbD · 0) h, by simpa using congrArg (BitVec.getLsbD · 1) h⟩
  · rintro ⟨h0, h1⟩
    apply BitVec.eq_of_getLsbD_eq
    intro i hi
    rw [BitVec.getLsbD_setWidth, BitVec.getLsbD_setWidth]
    interval_cases i
    · rw [h0]
    · rw [h1]

/-- An opcode is one of the eleven commands' or reserved (R192). -/
theorem opcode_cases : ∀ op : Byte, 0x0B ≤ op.toNat ∨ op = 0x00 ∨ op = 0x01 ∨ op = 0x02 ∨ op = 0x03 ∨ op = 0x04 ∨
    op = 0x05 ∨ op = 0x06 ∨ op = 0x07 ∨ op = 0x08 ∨ op = 0x09 ∨ op = 0x0A := by decide

/-- An opcode with no used operand bit decodes whatever the operand (R194). -/
theorem decode_of_usedOperandBits_eq_zero {op : Byte} (h : Machine.usedOperandBits op = 0) (d d' : Word) :
    decode (op ++ d) = decode (op ++ d') := by
  rcases opcode_cases op with hr | rfl | rfl | rfl | rfl | rfl | rfl | rfl | rfl | rfl | rfl | rfl
  · rw [decode_reserved op d hr, decode_reserved op d' hr]
  · exact (decode_nop d).trans (decode_nop d').symm
  · exact absurd h (by decide)
  · exact (decode_outbit d).trans (decode_outbit d').symm
  · exact (decode_keyclr d).trans (decode_keyclr d').symm
  · exact absurd h (by decide)
  · exact absurd h (by decide)
  · exact (decode_setup d).trans (decode_setup d').symm
  · exact (decode_run d).trans (decode_run d').symm
  · exact (decode_generate d).trans (decode_generate d').symm
  · exact absurd h (by decide)
  · exact (decode_clrerr d).trans (decode_clrerr d').symm

end Sys2Proof

namespace Sys2Proof.Machine

/-! ## The handshake (R191, R196) -/

section
variable {s t : State}

/-- An idle block to which a word is presented runs the decoded command. -/
theorem step_eq_exec {w : CmdWord} (hp : s.phase = .idle) (hw : s.Presents w) :
    step s = exec (decode w) (dropSample s) := by
  obtain ⟨hr, hv, rfl⟩ := hw
  exact edge_accept _ (dropSample s) hr hp hv

theorem cmdReady_iff (rst : Bool) : s.cmdReady rst = true ↔ s.phase = .idle ∧ rst = false := by
  simp [State.cmdReady, beq_iff_eq]

/-- An edge that takes no command, by reset, because the block is busy, or because none is valid, depends on `rst`
alone. -/
theorem edge_of_not_taken {p q : Ports} (hrst : q.rst = p.rst) (hp : ¬(p.cmdValid = true ∧ s.cmdReady p.rst = true))
    (hq : ¬(q.cmdValid = true ∧ s.cmdReady p.rst = true)) : edge p s = edge q s := by
  cases hr : p.rst with
  | true => rw [edge_reset p s hr, edge_reset q s (hrst.trans hr)]
  | false =>
    by_cases hi : s.phase = .idle
    · have hready : s.cmdReady p.rst = true := (cmdReady_iff _).mpr ⟨hi, hr⟩
      simp only [hready, and_true, Bool.not_eq_true] at hp hq
      rw [edge_idle p s hr hi hp, edge_idle q s (hrst.trans hr) hi hq]
    · rw [edge_busy p s hr hi, edge_busy q s (hrst.trans hr) hi]

/-- An idle block takes the word that `withFetchWord` presents (log entry 10). -/
theorem step_withFetchWord (w : Nat) (hp : s.phase = .idle) :
    step (s.withFetchWord 40 w) = exec (decode (BitVec.ofNat 40 w)) (dropSample s) := by
  have hword : BitVec.ofNat 40 (w % 2 ^ 40) = BitVec.ofNat 40 w :=
    BitVec.eq_of_toNat_eq (by simp only [BitVec.toNat_ofNat, Nat.mod_mod])
  have hfetch : s.withFetchWord 40 w = { s with inputs := presentPorts (BitVec.ofNat 40 w) :: s.inputs.tail } := by
    rw [State.withFetchWord, hword, hp]
  rw [hfetch]
  exact step_presentPorts hp rfl

/-! ## A cycle of the keystream engine (R200, R321) -/

/-- The bit just written reads back. -/
theorem getLsbD_setBit_self {n i : Nat} (hi : i < n) (v : BitVec n) (b : Bool) : (setBit v i b).getLsbD i = b := by
  rw [setBit_getLsbD, if_pos ⟨rfl, hi⟩]

/-- An edge of the keystream engine is one keystream cycle, whose bit goes to position `CNT` of its stream. -/
theorem SequencerEdge.cipher_and_bit_of_engine (h : SequencerEdge s t) (hp : s.phase = .runA ∨ s.phase = .runB)
    (hc : s.cnt.toNat < 114) :
    t.cipher = (runCycle s.params s.cipher).2 ∧
      (s.phase = .runA → t.sa.getLsbD s.cnt.toNat = (runCycle s.params s.cipher).1) ∧
      (s.phase = .runB → t.sb.getLsbD s.cnt.toNat = (runCycle s.params s.cipher).1) := by
  cases h with
  | loadKey hq | loadFrame hq | diffuse hq | prime hq => simp [hq] at hp
  | runA hq =>
    rw [advanceCount_cipher, advanceCount_sa]
    exact ⟨rfl, fun _ => getLsbD_setBit_self hc _ _, fun hB => (nomatch hq.symm.trans hB)⟩
  | runBMid hq => exact ⟨rfl, fun hA => (nomatch hq.symm.trans hA), fun _ => getLsbD_setBit_self hc _ _⟩
  | runBLast hq h113 =>
    rw [h113] at hc ⊢
    exact ⟨rfl, fun hA => (nomatch hq.symm.trans hA), fun _ => getLsbD_setBit_self hc _ _⟩

end

/-! ## The statements -/

/-- Settles O1, by `decode_encode`. -/
theorem decodeOfEncodeIsTheCommand : Obligations.DecodeOfEncodeIsTheCommand := fun _ hw => decode_encode hw

/-- Settles O2, command by command and by the reserved rows. -/
theorem decodeFollowsTheOpcodeMap : Obligations.DecodeFollowsTheOpcodeMap := by
  intro d
  refine ⟨decode_nop d, decode_clock d, decode_outbit d, decode_keyclr d, decode_keybyte_low d, decode_frame d,
    decode_setup d, decode_run d, decode_generate d, decode_read d, decode_clrerr d, fun op h => ?_⟩
  rw [decode_reserved op d h]
  obtain ⟨hres, hwf⟩ := isReserved_wellFormed_decodeReserved op h
  exact ⟨hres, opcode_decodeReserved op h, hwf⟩

/-- Settles O3: each of the four opcodes with used bits by its mask, every other one because its operand is unused. -/
theorem unusedOperandBitsAreIgnored : Obligations.UnusedOperandBitsAreIgnored := by
  intro op d d'
  by_cases hclock : op = 0x01
  · subst hclock
    rw [decode_clock, decode_clock, Instr.clock.injEq, ← setWidth_two_eq_iff]
    exact (and_lowMask_eq_iff 30 2 d d').symm
  by_cases hkeybyte : op = 0x04
  · subst hkeybyte
    rw [decode_keybyte_low, decode_keybyte_low, Instr.keybyte.injEq]
    exact (and_lowMask_eq_iff 24 8 d d').symm
  by_cases hframe : op = 0x05
  · subst hframe
    rw [decode_frame, decode_frame, Instr.frame.injEq]
    exact (and_lowMask_eq_iff 10 22 d d').symm
  by_cases hread : op = 0x09
  · subst hread
    rw [decode_read, decode_read, Instr.read.injEq]
    exact (and_lowMask_eq_iff 24 8 d d').symm
  have hunused : usedOperandBits op = 0 := by
    rw [usedOperandBits, if_neg hclock, if_neg hkeybyte, if_neg hframe, if_neg hread]
  simp [hunused, decode_of_usedOperandBits_eq_zero hunused d d']

/-- Settles O53: a reset, a command and an idle edge always answer, and an edge of a busy block does because `CNT` is in
its phase's range. -/
theorem invariantStatesAlwaysStep : Obligations.InvariantStatesAlwaysStep := by
  intro s hs
  rcases step_cases s with ⟨-, he⟩ | ⟨-, -, -, he⟩ | ⟨-, -, -, he⟩ | ⟨-, -, he⟩
  · exact ⟨_, he⟩
  · obtain ⟨t, ht⟩ := exists_executes (decode s.portsNow.cmd) (dropSample s)
    exact ⟨t, he.trans (exec_eq_next_iff.mpr ht)⟩
  · exact ⟨_, he⟩
  · obtain ⟨t, ht⟩ := sequencerStep_next (dropSample s) hs.cnt_le
    exact ⟨t, he.trans ht⟩

/-- Settles O4, by evaluating the decoder on the twelve words. -/
theorem writtenOutWordsDecode : Obligations.WrittenOutWordsDecode := by
  unfold Obligations.WrittenOutWordsDecode
  decide

/-- Settles O26: a reserved command raises `BadCmd`, and so does an accepted word that decodes to one. -/
theorem reservedOpcodesOnlySetErrCmd : Obligations.ReservedOpcodesOnlySetErrCmd := by
  refine ⟨fun s => exec_of_isReserved s rfl, fun s op => ⟨exec_of_isReserved s rfl, exec_of_isReserved s rfl,
    exec_of_isReserved s rfl, exec_of_isReserved s rfl, exec_of_isReserved s rfl⟩, fun s op d h hp hw => ?_⟩
  rw [step_eq_exec hp hw]
  exact exec_of_isReserved (dropSample s) (isReserved_decode op d h)

/-- Settles O28: `step` is `edge` by definition, which runs the decoded word; an encoded command decodes to itself. -/
theorem stepRunsTheDecodedCommand : Obligations.StepRunsTheDecodedCommand := by
  refine ⟨fun s => rfl, fun s w hp hw => step_eq_exec hp hw, fun s i hwf hp hw => ?_,
    fun s w hp => step_withFetchWord w hp⟩
  rw [step_eq_exec hp hw, decode_encode hwf]
  rfl

/-- Settles O29, from the accepting edge and the edges that take no command. -/
theorem commandIsTakenExactlyWhenReady : Obligations.CommandIsTakenExactlyWhenReady := by
  intro s p
  refine ⟨cmdReady_iff _, fun ⟨hv, hready⟩ => ?_, fun hp v op d hq => edge_of_not_taken rfl hp hq⟩
  obtain ⟨hi, hr⟩ := (cmdReady_iff _).mp hready
  exact edge_accept p s hr hi hv

/-- Settles O32, by the idle edge. -/
theorem idleBlockHoldsItsState : Obligations.IdleBlockHoldsItsState :=
  fun s hp hr hv => edge_idle s.portsNow (dropSample s) hr hp hv

/-- Settles O49: `CLOCK 0, 0` and `OUTBIT` together are one keystream cycle, as an edge of the engine is. -/
theorem ksbitMatchesAnEngineCycle : Obligations.KsbitMatchesAnEngineCycle := by
  intro s
  refine ⟨_, _, exec_eq_next_iff.mpr (.clock false false), exec_eq_next_iff.mpr .outbit,
    fun e hcipher hparams hphase hc hr => ?_⟩
  have busy : e.phase ≠ .idle := by rcases hphase with h | h <;> simp [h]
  have hlast : e.phase.lastCnt = 113 := by rcases hphase with h | h <;> rw [h] <;> rfl
  obtain ⟨v, hstep, hedge⟩ := step_busy busy hr (hlast ▸ hc)
  obtain ⟨hv, hsa, hsb⟩ := hedge.cipher_and_bit_of_engine hphase (Nat.lt_succ_of_le hc)
  rw [dropSample_params, dropSample_cipher, hcipher, hparams] at hv hsa hsb
  have hbit (b : Bool) : ((BitVec.ofBool b).setWidth 32).getLsbD 0 = b := by cases b <;> rfl
  exact ⟨v, hstep, hv, fun h => (hsa h).trans (hbit _).symm, fun h => (hsb h).trans (hbit _).symm⟩

end Sys2Proof.Machine

/-! The statements about file 40_clock_controller.md: the bits of an advanced register (R240), which registers move and
how many (R234, R235, R238), what clocking keeps (R239, and that no register is emptied), the linearity of a load cycle
(R283), and the command `CLOCK` (R237). The register advance is treated once, for a register of any width. -/

namespace Sys2Proof.Machine

/-! ## A register that advances, or keeps its value -/

section
variable {n : Nat} (t : BitVec n) (k : Nat) (r : BitVec n) (l : Bool)

/-- Every bit of an advanced register, by the three places a bit comes from (R240). -/
theorem advance_getLsbD_eq_ite {i : Nat} (hi : i < n) : (advance t k r l).getLsbD i =
    if l = true ∧ i = k then true else if i = 0 then parity (r &&& t) else r.getLsbD (i - 1) := by
  rw [advance_getLsbD t k r l i hi]
  by_cases hforced : l = true ∧ i = k
  · simp [hforced]
  · have hnot : (l && decide (i = k)) = false := by simpa using hforced
    rw [hnot, Bool.false_or, if_neg hforced]

/-- R240 for a register of any width, with its forced bit above bit 0. -/
theorem advance_bits (hk : 0 < k) (hn : 0 < n) :
    (advance t k r l).getLsbD 0 = parity (r &&& t) ∧
    (∀ i, 1 ≤ i → i < n → (advance t k r l).getLsbD i = if l = true ∧ i = k then true else r.getLsbD (i - 1)) ∧
    ∀ i, n ≤ i → (advance t k r l).getLsbD i = false := by
  refine ⟨?_, fun i h1 hi => ?_, fun i hi => BitVec.getLsbD_of_ge _ i hi⟩
  · rw [advance_getLsbD_eq_ite t k r l hn, if_neg fun h => Nat.ne_of_lt hk h.2, if_pos rfl]
  · rw [advance_getLsbD_eq_ite t k r l hi, if_neg (Nat.ne_of_gt h1)]

/-- Every bit of a register that advances under a condition, and otherwise keeps its value (R235). -/
theorem ite_advance_getLsbD (moves : Prop) [Decidable moves] {i : Nat} (hi : i < n) :
    (if moves then advance t k r l else r).getLsbD i =
      if moves then
        if l = true ∧ i = k then true else if i = 0 then parity (r &&& t) else r.getLsbD (i - 1)
      else r.getLsbD i := by
  split
  · exact advance_getLsbD_eq_ite t k r l hi
  · rfl

/-- Without the forced bit, advancing is linear (R232). -/
theorem advance_xor (q : BitVec n) :
    advance t k (r ^^^ q) false = advance t k r false ^^^ advance t k q false := by
  apply BitVec.eq_of_getLsbD_eq
  intro i hi
  have hparity : parity ((r ^^^ q) &&& t) = (parity (r &&& t) ^^ parity (q &&& t)) := by
    rw [← parity_xor]
    congr 1
    apply BitVec.eq_of_getLsbD_eq
    intro j _
    simp [Bool.and_xor_distrib_right]
  simp only [BitVec.getLsbD_xor, advance_getLsbD_eq_ite _ _ _ _ hi, hparity]
  by_cases h0 : i = 0 <;> simp [h0]

/-- Without the forced bit, a register of zeros stays so (R239). -/
theorem advance_zero : advance t k 0 false = 0 := by
  simpa using advance_xor t k 0 0

/-- Advancing and injecting a bit is linear in the register and the bit together (R282, R283). -/
theorem advance_inject_xor (q : BitVec n) (a b : Bool) :
    advance t k (r ^^^ q) false ^^^ (BitVec.ofBool (a ^^ b)).setWidth n =
      (advance t k r false ^^^ (BitVec.ofBool a).setWidth n) ^^^
        (advance t k q false ^^^ (BitVec.ofBool b).setWidth n) := by
  have hbit : (BitVec.ofBool (a ^^ b)).setWidth n = (BitVec.ofBool a).setWidth n ^^^ (BitVec.ofBool b).setWidth n := by
    rw [← BitVec.ofBool_xor_ofBool, BitVec.setWidth_xor]
  rw [advance_xor, hbit]
  ac_rfl

/-- A register that has just taken its forced bit holds a one, whatever bit is injected below it (42_loader.md R298). -/
theorem advance_inject_ne_zero (b : Bool) (hk : 0 < k) (hn : k < n) :
    advance t k r true ^^^ (BitVec.ofBool b).setWidth n ≠ 0 := by
  intro h
  have hforced := advance_inject_getLsbD t k r true b k hn hk
  rw [h] at hforced
  simp at hforced

end

/-- A register that advances under a condition keeps a one, since its top bit is tapped (R230, R232). -/
theorem ite_advance_ne_zero {n : Nat} {t : BitVec (n + 1)} {k : Nat} {r : BitVec (n + 1)} {l : Bool} (moves : Prop)
    [Decidable moves] (ht : t.getLsbD n = true) (hr : r ≠ 0) : (if moves then advance t k r l else r) ≠ 0 := by
  split
  · exact advance_ne_zero t k r l ht hr
  · exact hr

/-! ## The clock controller -/

section
variable (P : Config.ClkTaps) (c : Cipher) (f l : Bool)

/-- The test of the clock controller for one register, as a proposition (R234). -/
theorem ite_force_or_agree {α : Type} (a m : Bool) (x y : α) :
    (if f || a == m then x else y) = if f = true ∨ a = m then x else y := by
  simp only [Bool.or_eq_true, beq_iff_eq]

/-- A load cycle register by register: all four advance and take the bit (R283). -/
theorem loadCycle_eq (b : Bool) : loadCycle P c l b =
    { r1 := advance1 c.r1 l ^^^ (BitVec.ofBool b).setWidth 19
      r2 := advance2 c.r2 l ^^^ (BitVec.ofBool b).setWidth 22
      r3 := advance3 c.r3 l ^^^ (BitVec.ofBool b).setWidth 23
      r4 := advance4 c.r4 l ^^^ (BitVec.ofBool b).setWidth 17
      delay := c.delay } := rfl

/-- The all-zero registers stay so without the load bit (R239). -/
theorem clock_zeroCipher (delay : Bool) : clock P (zeroCipher delay) f false = zeroCipher delay := by
  simp only [clock, zeroCipher, advance1, advance2, advance3, advance4, advance_zero, ite_self]

/-- The last load cycle, with its four forced bits, leaves a one in every register (42_loader.md R298). -/
theorem loadCycle_forced_allNonzero (b : Bool) : (loadCycle P c true b).AllNonzero := by
  rw [loadCycle_eq]
  exact ⟨advance_inject_ne_zero _ _ _ _ (by decide) (by decide), advance_inject_ne_zero _ _ _ _ (by decide) (by decide),
    advance_inject_ne_zero _ _ _ _ (by decide) (by decide), advance_inject_ne_zero _ _ _ _ (by decide) (by decide)⟩

/-- All three of the bits agree with their majority exactly when they are equal (R238). -/
theorem all_agree_with_maj_iff : ∀ a b c : Bool,
    (a == maj a b c).toNat + (b == maj a b c).toNat + (c == maj a b c).toNat = 3 ↔ a = b ∧ b = c := by decide

end

/-! ## Loaded registers -/

section
variable {s t : State}

/-- A state past the last frame edge is in a phase after LOADFRAME (10_state.md R140). -/
theorem State.phase_of_pastFrame (h : s.pastFrame) : s.phase = .diffuse ∨ s.phase = .prime ∨ s.phase.isRun = true :=
  h.imp_right (Or.imp_right And.right)

/-- An idle block is in no sequence. -/
theorem State.not_pastFrame_of_idle (hp : s.phase = .idle) : ¬ s.pastFrame := by
  intro h
  simpa [hp, Phase.isRun] using s.phase_of_pastFrame h

/-- In the keystream engine the mark of a loaded sequence is `CHAIN` (log entry 6). -/
theorem State.pastFrame_iff_of_isRun (hp : s.phase.isRun = true) : s.pastFrame ↔ s.chain = true := by
  have hload : s.phase ≠ .diffuse ∧ s.phase ≠ .prime := by constructor <;> intro h <;> simp [h, Phase.isRun] at hp
  simp [State.pastFrame, hload, hp]

/-- No command leads past the last frame edge: it leaves the block idle, or starts a load or an unchained stream. -/
theorem Executes.not_pastFrame {i : Instr} (h : Executes s i t) (hp : s.phase = .idle) : ¬ t.pastFrame := by
  cases h with
  | setup | generate => simp [State.pastFrame, Phase.isRun]
  | run => simp [State.pastFrame, enterPhase]
  | nop | clock | outbit | keyclr | keybyte | frame | setupRejected | generateRejected | read | readReserved | clrerr
  | reserved => exact State.not_pastFrame_of_idle hp

/-- An edge of a busy block leaves a one in every register of a state past the last frame edge: the edge that leads
there places the forced bits, and every other one clocks, or keeps, registers that hold a one. -/
theorem SequencerEdge.keeps_allNonzero (h : SequencerEdge s t) (hs : s.pastFrame → s.cipher.AllNonzero)
    (ht : t.pastFrame) : t.cipher.AllNonzero := by
  cases h with
  | loadKey hp =>
    have hphase := State.phase_of_pastFrame ht
    rw [advanceCount_phase, setCipher_phase, hp] at hphase
    split at hphase <;> simp [Phase.isRun] at hphase
  | loadFrame hp =>
    rw [advanceCount_cipher, setCipher_cipher]
    by_cases hlast : s.cnt.toNat = 21
    · simpa [hlast] using loadCycle_forced_allNonzero s.params.clkTaps s.cipher (s.frame.getLsbD s.cnt.toNat)
    · have hphase := State.phase_of_pastFrame ht
      simp [hp, hlast, Phase.isRun] at hphase
  | diffuse hp =>
    rw [advanceCount_cipher]
    exact clock_allNonzero _ _ _ _ (hs (.inl hp))
  | prime hp => exact hs (.inr (.inl hp))
  | runA hp =>
    have hrun : s.phase.isRun = true := by rw [hp]; rfl
    have hnext : (if s.cnt.toNat = 113 then Phase.runB else s.phase).isRun = true := by split; exacts [rfl, hrun]
    have hchain : s.chain = true := by
      simpa using (State.pastFrame_iff_of_isRun (by simpa using hnext)).mp ht
    rw [advanceCount_cipher]
    exact clock_allNonzero _ _ _ _ (hs ((State.pastFrame_iff_of_isRun hrun).mpr hchain))
  | runBMid hp =>
    have hrun : s.phase.isRun = true := by rw [hp]; rfl
    have hchain : s.chain = true := (State.pastFrame_iff_of_isRun hrun).mp ht
    exact clock_allNonzero _ _ _ _ (hs ((State.pastFrame_iff_of_isRun hrun).mpr hchain))
  | runBLast => exact absurd ht (State.not_pastFrame_of_idle rfl)

end

/-! ## The statements -/

/-- Settles O54: a reset, a command and an idle edge do not lead past the last frame edge, and an edge of a busy block
keeps, or there makes, every register nonzero. -/
theorem stepKeepsLoadedRegistersNonzero : Obligations.StepKeepsLoadedRegistersNonzero := by
  intro s t _ hs h ht
  cases hr : s.portsNow.rst with
  | true =>
    cases (edge_reset s.portsNow (dropSample s) hr).symm.trans h
    exact absurd ht (State.not_pastFrame_of_idle rfl)
  | false =>
    rcases step_cases_of_noReset hr h with ⟨hp, -, hx⟩ | ⟨hp, -, rfl⟩ | ⟨-, he⟩
    · exact absurd ht (hx.not_pastFrame hp)
    · exact absurd ht (State.not_pastFrame_of_idle hp)
    · exact he.keeps_allNonzero hs ht

/-- Settles O6: R240 for each register, and the parity of its tapped bits. -/
theorem advanceShiftsUpAndForcesItsBit : Obligations.AdvanceShiftsUpAndForcesItsBit := by
  refine ⟨fun r l => ?_, fun r l => ?_, fun r l => ?_, fun r l => ?_⟩
  · obtain ⟨hlow, hmid, hhigh⟩ := advance_bits tapMask1 15 r l (by decide) (by decide)
    exact ⟨hlow, parity_tap1 r, hmid, hhigh⟩
  · obtain ⟨hlow, hmid, hhigh⟩ := advance_bits tapMask2 16 r l (by decide) (by decide)
    exact ⟨hlow, parity_tap2 r, hmid, hhigh⟩
  · obtain ⟨hlow, hmid, hhigh⟩ := advance_bits tapMask3 18 r l (by decide) (by decide)
    exact ⟨hlow, parity_tap3 r, hmid, hhigh⟩
  · obtain ⟨hlow, hmid, hhigh⟩ := advance_bits tapMask4 10 r l (by decide) (by decide)
    exact ⟨hlow, parity_tap4 r, hmid, hhigh⟩

/-- Settles O10: a register that advances keeps a one, and so does one that does not. -/
theorem clockKeepsNonzeroRegistersNonzero : Obligations.ClockKeepsNonzeroRegistersNonzero :=
  fun _ _ _ _ => ⟨ite_advance_ne_zero _ (by decide), ite_advance_ne_zero _ (by decide),
    ite_advance_ne_zero _ (by decide), advance_ne_zero _ _ _ _ (by decide)⟩

/-- Settles O11, register by register. -/
theorem loadCycleIsLinear : Obligations.LoadCycleIsLinear := by
  intro P c d a b
  simp only [loadCycle_eq, Cipher.xor, Cipher.mk.injEq, and_true]
  exact ⟨advance_inject_xor _ _ _ _ _ _, advance_inject_xor _ _ _ _ _ _, advance_inject_xor _ _ _ _ _ _,
    advance_inject_xor _ _ _ _ _ _⟩

/-- Settles O7: the test of the clock controller, register by register. -/
theorem clockAdvancesTheAgreeingRegisters : Obligations.ClockAdvancesTheAgreeingRegisters :=
  fun _ _ f _ => ⟨rfl, ite_force_or_agree f _ _ _ _, ite_force_or_agree f _ _ _ _, ite_force_or_agree f _ _ _ _⟩

/-- Settles O14: each register by the bits of one that advances under R234's test. -/
theorem clockCommandBitByBit : Obligations.ClockCommandBitByBit := by
  rintro s f l _ _ _ m rfl rfl rfl hm
  rw [← maj_eq] at hm
  obtain ⟨-, h1, h2, h3⟩ := clockAdvancesTheAgreeingRegisters s.params.clkTaps s.cipher f l
  rw [← hm] at h1 h2 h3
  refine ⟨_, rfl, rfl, rfl, fun i hi => ?_, fun i hi => ?_, fun i hi => ?_, fun i hi => ?_⟩
  · rw [← parity_tap1]
    exact (congrArg (BitVec.getLsbD · i) h1).trans (ite_advance_getLsbD _ _ _ _ _ hi)
  · rw [← parity_tap2]
    exact (congrArg (BitVec.getLsbD · i) h2).trans (ite_advance_getLsbD _ _ _ _ _ hi)
  · rw [← parity_tap3]
    exact (congrArg (BitVec.getLsbD · i) h3).trans (ite_advance_getLsbD _ _ _ _ _ hi)
  · rw [← parity_tap4]
    exact advance_getLsbD_eq_ite _ _ _ _ hi

/-- Settles O8: the registers whose control bits agree with the vote move. -/
theorem clockMovesThreeOrFourRegisters : Obligations.ClockMovesThreeOrFourRegisters := by
  intro P c l
  have htwo := two_agree_with_maj (ctrl1 P c.r4) (ctrl2 P c.r4) (ctrl3 P c.r4)
  have hthree := all_agree_with_maj_iff (ctrl1 P c.r4) (ctrl2 P c.r4) (ctrl3 P c.r4)
  refine ⟨⟨ctrl1 P c.r4 == vote P c.r4, ctrl2 P c.r4 == vote P c.r4, ctrl3 P c.r4 == vote P c.r4, rfl, ?_, hthree⟩,
    rfl⟩
  have h1 := Bool.toNat_le (ctrl1 P c.r4 == vote P c.r4)
  have h2 := Bool.toNat_le (ctrl2 P c.r4 == vote P c.r4)
  have h3 := Bool.toNat_le (ctrl3 P c.r4 == vote P c.r4)
  unfold vote at h1 h2 h3 ⊢
  omega

/-- Settles O9, since a register of zeros advances to zeros. -/
theorem clockKeepsTheZeroState : Obligations.ClockKeepsTheZeroState := fun P delay f => clock_zeroCipher P f delay

end Sys2Proof.Machine

/-! The keystream engine's run, for the fixed point of the clock controller (R239) in it: what one engine edge adds to
the cipher state and the streams (43_keystream.md R321), and what stands in them after every edge of a `RUN`. -/

namespace Sys2Proof.Machine

/-! ## The state and the streams along the engine's edges -/

/-- The cipher state after `n` keystream cycles (43_keystream.md R321). -/
def engineCipher (P : Config.Params) (c : Cipher) : Nat → Cipher
  | 0 => c
  | n + 1 => (runCycle P (engineCipher P c n)).2

/-- The bit that keystream cycle `n` extracts (R321): stream A takes cycles 0 to 113, stream B cycles 114 to 227. -/
def engineBit (P : Config.Params) (c : Cipher) (n : Nat) : Bool := (runCycle P (engineCipher P c n)).1

/-- The state `u` after `k` edges of the keystream engine that started with the cipher state `c`: the bits written so
far stand in the streams. -/
structure AfterEngineEdges (P : Config.Params) (c : Cipher) (k : Nat) (u : State) : Prop where
  params : u.params = P
  cipher : u.cipher = engineCipher P c k
  sa : ∀ j, j < 114 → j < k → u.sa.getLsbD j = engineBit P c j
  sb : ∀ j, j < 114 → 114 + j < k → u.sb.getLsbD j = engineBit P c (114 + j)

section
variable {P : Config.Params} {c : Cipher} {s t u : State} {k : Nat}

/-- Where the timeline puts the engine after `k` of its edges, by the stream it is in (10_state.md R141). -/
theorem phase_cnt_of_engineAt (hplace : u.place = engineAt k) :
    (k < 114 ∧ u.phase = .runA ∧ u.cnt.toNat = k) ∨ (114 ≤ k ∧ u.phase = .runB ∧ u.cnt.toNat + 114 = k) := by
  by_cases hk : k < 114
  · rw [engineAt, if_pos hk] at hplace
    exact .inl ⟨hk, congrArg Prod.fst hplace, congrArg Prod.snd hplace⟩
  · rw [engineAt, if_neg hk] at hplace
    have hcnt : u.cnt.toNat = k - 114 := congrArg Prod.snd hplace
    exact .inr ⟨by omega, congrArg Prod.fst hplace, by omega⟩

/-- An edge of a busy block keeps the parameters. -/
theorem SequencerEdge.params_eq (h : SequencerEdge s t) (busy : s.phase ≠ .idle) : t.params = s.params :=
  (sequencerStep_sameModelFields ((sequencerStep_eq_next_iff busy).mpr h)).params

/-- One more engine edge extracts one more bit. -/
theorem AfterEngineEdges.succ (h : AfterEngineEdges P c k u) (he : SequencerEdge u t) (hplace : u.place = engineAt k)
    (hk : k < 228) : AfterEngineEdges P c (k + 1) t := by
  obtain ⟨hparams, hcipher, hsa, hsb⟩ := h
  have keptA (j : Nat) (hj : ¬(u.phase = .runA ∧ j = u.cnt.toNat)) : t.sa.getLsbD j = u.sa.getLsbD j :=
    not_not.mp fun hne => hj (he.of_sa_ne hne)
  have keptB (j : Nat) (hj : ¬(u.phase = .runB ∧ j = u.cnt.toNat)) : t.sb.getLsbD j = u.sb.getLsbD j :=
    not_not.mp fun hne => hj (he.of_sb_ne hne)
  rcases phase_cnt_of_engineAt hplace with ⟨hk114, hA, hcnt⟩ | ⟨hk114, hB, hcnt⟩
  · obtain ⟨hcipher', hbit, -⟩ := he.cipher_and_bit_of_engine (.inl hA) (by omega)
    rw [hparams, hcipher] at hcipher' hbit
    refine ⟨(he.params_eq (by simp [hA])).trans hparams, hcipher', fun j hj hjk => ?_, fun j _ hjk => by omega⟩
    by_cases hnew : j = u.cnt.toNat
    · rw [hnew, hbit hA, hcnt, engineBit]
    · rw [keptA j fun h => hnew h.2, hsa j hj (by omega)]
  · obtain ⟨hcipher', -, hbit⟩ := he.cipher_and_bit_of_engine (.inr hB) (by omega)
    rw [hparams, hcipher] at hcipher' hbit
    refine ⟨(he.params_eq (by simp [hB])).trans hparams, hcipher', fun j hj _ => ?_, fun j hj hjk => ?_⟩
    · rw [keptA j (by simp [hB]), hsa j hj (by omega)]
    · by_cases hnew : j = u.cnt.toNat
      · rw [hnew, hbit hB, Nat.add_comm, hcnt, engineBit]
      · rw [keptB j fun h => hnew h.2, hsb j hj (by omega)]

/-- The streams do not depend on the host's samples. -/
theorem AfterEngineEdges.dropSample (h : AfterEngineEdges P c k u) : AfterEngineEdges P c k (Machine.dropSample u) :=
  ⟨h.params, h.cipher, h.sa, h.sb⟩

/-! ## A whole `RUN` -/

/-- After every edge of a `RUN` but its last, the accepting edge counted, the block is on the timeline and the streams
hold the bits of the engine's edges so far: by induction on the edges. -/
theorem exists_afterEngineEdges_of_run {w : CmdWord} (hp : s.phase = .idle) (hw : s.Presents w)
    (hrun : decode w = .run) (hn : s.NoReset 229) (hk : k < 228) :
    ∃ u, OnTimeline s .run (k + 1) u ∧ AfterEngineEdges s.params s.cipher k u := by
  induction k with
  | zero =>
    obtain ⟨t, hstep, hx⟩ := step_of_presents hp hw
    rw [hrun] at hx
    refine ⟨t, .start hx hstep (by simp [edgesOf]), ?_⟩
    cases hx with
    | run => exact ⟨rfl, rfl, nofun, nofun⟩
    | reserved hr => cases hr
  | succ k ih =>
    obtain ⟨u, hu, hbits⟩ := ih (Nat.lt_of_succ_lt hk)
    obtain ⟨t, hstep, he, -⟩ := hu.edge (Nat.le_add_left 1 k) (Nat.add_lt_add_right (Nat.lt_of_succ_lt hk) 1) hn
    obtain ⟨t', ht'⟩ := hu.succ (Nat.le_add_left 1 k) (Nat.add_lt_add_right hk 1) hn
    cases (runEdges_snoc hu.run hstep).symm.trans ht'.run
    exact ⟨t, ht', hbits.dropSample.succ he hu.place (Nat.lt_of_succ_lt hk)⟩

/-- A `RUN` at its end: the 228 bits stand in the streams and are announced as valid (R320, R321). -/
theorem runEdges_of_run {w : CmdWord} (hp : s.phase = .idle) (hw : s.Presents w) (hrun : decode w = .run)
    (hn : s.NoReset 229) :
    ∃ t, runEdges 229 s = .next t ∧ AfterEngineEdges s.params s.cipher 228 t ∧ t.ksValid = true := by
  obtain ⟨u, hu, hbits⟩ := exists_afterEngineEdges_of_run hp hw hrun hn (by decide : 227 < 228)
  obtain ⟨t, hstep, he, -⟩ := hu.edge (by decide) (by decide : 228 < 229) hn
  have hphase : u.phase = .runB := congrArg Prod.fst hu.place
  have hcnt : u.cnt = 113 := BitVec.eq_of_toNat_eq (congrArg Prod.snd hu.place)
  exact ⟨t, runEdges_snoc hu.run hstep, hbits.dropSample.succ he hu.place (by decide),
    he.ksValid_eq.trans (if_pos ⟨hphase, hcnt⟩)⟩

end

/-! ## On the all-zero state -/

/-- The combiner gives 0 on all-zero registers: in each majority two of the three bits are 0 (41_output_generator.md
R261, R262). -/
theorem combine_zeroCipher (P : Config.R2Out) (delay : Bool) : combine P (zeroCipher delay) = false := by
  simp [combine, combineTop, combineN1, combineN2, combineN3, zeroCipher, maj]

/-- A keystream cycle leaves the all-zero state as it is. -/
theorem runCycle_zeroCipher (P : Config.Params) : runCycle P (zeroCipher false) = (false, zeroCipher false) := by
  rw [runCycle, clock_zeroCipher, outputBit, combine_zeroCipher]
  rfl

theorem engineCipher_zeroCipher (P : Config.Params) (n : Nat) :
    engineCipher P (zeroCipher false) n = zeroCipher false := by
  induction n with
  | zero => rfl
  | succ n ih => rw [engineCipher, ih, runCycle_zeroCipher]

theorem engineBit_zeroCipher (P : Config.Params) (n : Nat) : engineBit P (zeroCipher false) n = false := by
  rw [engineBit, engineCipher_zeroCipher, runCycle_zeroCipher]

/-! ## The statement -/

/-- Settles O46: every cycle of the `RUN` extracts a 0 and leaves the all-zero state. -/
theorem runOnTheZeroStateGivesZeroStreams : Obligations.RunOnTheZeroStateGivesZeroStreams := by
  intro s d hp hzero hw hn
  obtain ⟨t, hrun, hend, hks⟩ := runEdges_of_run hp hw (decode_run d) hn
  rw [hzero] at hend
  refine ⟨t, hrun, BitVec.eq_of_getLsbD_eq fun j hj => ?_, BitVec.eq_of_getLsbD_eq fun j hj => ?_,
    hend.cipher.trans (engineCipher_zeroCipher _ _), hks⟩
  · exact ((hend.sa j hj (by omega)).trans (engineBit_zeroCipher _ _)).trans BitVec.getLsbD_zero.symm
  · exact ((hend.sb j hj (by omega)).trans (engineBit_zeroCipher _ _)).trans BitVec.getLsbD_zero.symm

end Sys2Proof.Machine

/-! The statements about file 41_output_generator.md: the combiner (R260-R262), the delay register (R263, R264) and the
command `OUTBIT` (R265). The laws of R264 are proved once for the output generator itself; the statements about the
command follow from them and from what `OUTBIT` answers. -/

namespace Sys2Proof.Machine

/-! ## The combiner (R262) -/

/-- The combiner reads neither `R4` nor `DELAY`. -/
theorem combine_eq_of_dataRegisters {P : Config.R2Out} {c d : Cipher} (h1 : c.r1 = d.r1) (h2 : c.r2 = d.r2)
    (h3 : c.r3 = d.r3) : combine P c = combine P d := by
  simp only [combine, combineTop, combineN1, combineN2, combineN3, h1, h2, h3]

/-! ## The delay register (R263, R264) -/

section
variable (P : Config.R2Out) (c : Cipher)

/-- A primed state, whose `DELAY` is the combiner's bit already, is a fixed point of the output generator. -/
theorem outputBit_of_primed (h : c.delay = combine P c) : (outputBit P c).2 = c := by
  rw [outputBit, ← h]

/-- The output generator leaves a primed state: it writes `DELAY` alone, which the combiner does not read. -/
theorem outputBit_primes : (outputBit P c).2.delay = combine P (outputBit P c).2 :=
  combine_eq_of_dataRegisters rfl rfl rfl

end

/-- A keystream cycle extracts the old `DELAY`, which clocking keeps (40_clock_controller.md R236). -/
theorem runCycle_bit (P : Config.Params) (c : Cipher) : (runCycle P c).1 = c.delay := rfl

/-! ## The command `OUTBIT` (R265) -/

/-- A bit as a zero-extended word. -/
theorem setWidth_ofBool_eq_ite (b : Bool) : (BitVec.ofBool b).setWidth 32 = if b then (1 : Word) else 0 := by
  cases b <;> rfl

/-- Bit 0 of that word is the bit. -/
theorem getLsbD_zero_ite (b : Bool) : (if b then (1 : Word) else 0).getLsbD 0 = b := by
  rw [← setWidth_ofBool_eq_ite, getLsbD_setWidth_ofBool]
  rfl

/-- `OUTBIT` through the output generator: the returned bit goes to `RDATA`, the new cipher state into its place. -/
theorem exec_outbit (s : State) : exec .outbit s = .next { s with
    cipher := (outputBit s.params.r2Out s.cipher).2
    rdata := if (outputBit s.params.r2Out s.cipher).1 then 1 else 0 } := by
  rw [← setWidth_ofBool_eq_ite]
  exact exec_eq_next_iff.mpr .outbit

/-! ## The statements -/

/-- Settles O12: the three terms by their definitions, and the independence because the data registers are the same. -/
theorem combineIsTopXorThreeMajorities : Obligations.CombineIsTopXorThreeMajorities :=
  fun _ _ => ⟨rfl, fun _ _ => combine_eq_of_dataRegisters rfl rfl rfl⟩

/-- Settles O15, by the two parts of the output generator's answer. -/
theorem outbitReturnsTheOldDelay : Obligations.OutbitReturnsTheOldDelay := exec_outbit

/-- Settles O16: an `OUTBIT` leaves in `DELAY` the combiner's bit, which is what the next one returns; and it leaves a
primed state, which a second one keeps. -/
theorem outbitIsOneExtractionLate : Obligations.OutbitIsOneExtractionLate := by
  intro s
  refine ⟨_, exec_outbit s, fun u hu => ⟨_, exec_outbit u, ?_⟩, _, exec_outbit _, ?_⟩
  · have hreturned : (outputBit u.params.r2Out u.cipher).1 = combine s.params.r2Out s.cipher := hu
    simp only [hreturned]
  · exact outputBit_of_primed _ _ (outputBit_primes s.params.r2Out s.cipher)

/-- Settles O50: `OUTBIT` keeps a primed state and returns its `DELAY`, which is the bit that a keystream cycle
extracts. -/
theorem outbitAfterSetupReturnsTheFirstStreamBit : Obligations.OutbitAfterSetupReturnsTheFirstStreamBit := by
  intro s hprimed
  refine ⟨_, exec_outbit s, outputBit_of_primed _ _ hprimed, fun e hcipher hphase hcnt hr => ?_⟩
  have hc : e.cnt.toNat = 0 := congrArg BitVec.toNat hcnt
  obtain ⟨v, hstep, hedge⟩ := step_busy (s := e) (by simp [hphase]) hr (by simp [hc])
  obtain ⟨-, hsa, -⟩ := hedge.cipher_and_bit_of_engine (.inl hphase) (by simp [hc])
  refine ⟨v, hstep, ?_⟩
  calc v.sa.getLsbD 0 = e.cipher.delay := by simpa [hc, runCycle_bit] using hsa hphase
    _ = s.cipher.delay := by rw [hcipher]
    _ = (if s.cipher.delay then (1 : Word) else 0).getLsbD 0 := (getLsbD_zero_ite _).symm

end Sys2Proof.Machine

/-! The statements about file 42_loader.md. The three counted phases of the loader, LOADKEY, LOADFRAME and DIFFUSE
(R291-R293), have one shape: `CNT` counts up, and each value of it has a cycle that changes the cipher state. So one
edge of such a phase, and a run through the whole phase, is treated once for all three; the loader's run (R295) chains
them. -/

namespace Sys2Proof.Machine

/-! ## The bits of a load cycle (R282, R283) -/

/-- Every bit of a load cycle: bit 0 of a register is the parity of its tapped bits XOR the injected bit, every other
bit comes from the one below it, and with the load bit the forced bit is 1. -/
theorem loadCycle_bits (P : Config.ClkTaps) (c : Cipher) (l b : Bool) :
    (∀ i, i < 19 → (loadCycle P c l b).r1.getLsbD i =
      if l = true ∧ i = 15 then true
      else if i = 0 then c.r1.getLsbD 18 ^^ c.r1.getLsbD 17 ^^ c.r1.getLsbD 16 ^^ c.r1.getLsbD 13 ^^ b
      else c.r1.getLsbD (i - 1)) ∧
    (∀ i, i < 22 → (loadCycle P c l b).r2.getLsbD i =
      if l = true ∧ i = 16 then true
      else if i = 0 then c.r2.getLsbD 21 ^^ c.r2.getLsbD 20 ^^ b
      else c.r2.getLsbD (i - 1)) ∧
    (∀ i, i < 23 → (loadCycle P c l b).r3.getLsbD i =
      if l = true ∧ i = 18 then true
      else if i = 0 then c.r3.getLsbD 22 ^^ c.r3.getLsbD 21 ^^ c.r3.getLsbD 20 ^^ c.r3.getLsbD 7 ^^ b
      else c.r3.getLsbD (i - 1)) ∧
    (∀ i, i < 17 → (loadCycle P c l b).r4.getLsbD i =
      if l = true ∧ i = 10 then true
      else if i = 0 then c.r4.getLsbD 16 ^^ c.r4.getLsbD 11 ^^ b
      else c.r4.getLsbD (i - 1)) := by
  rw [← parity_tap1, ← parity_tap2, ← parity_tap3, ← parity_tap4]
  exact ⟨fun i hi => advance_inject_getLsbD tapMask1 15 c.r1 l b i hi (by decide),
    fun i hi => advance_inject_getLsbD tapMask2 16 c.r2 l b i hi (by decide),
    fun i hi => advance_inject_getLsbD tapMask3 18 c.r3 l b i hi (by decide),
    fun i hi => advance_inject_getLsbD tapMask4 10 c.r4 l b i hi (by decide)⟩

/-- All four forced bits are 1 (R298). -/
structure Cipher.ForcedBits (c : Cipher) : Prop where
  r1 : c.r1.getLsbD 15 = true
  r2 : c.r2.getLsbD 16 = true
  r3 : c.r3.getLsbD 18 = true
  r4 : c.r4.getLsbD 10 = true

/-- The load cycle with `L = 1` places the forced bits, in any state and whatever bit it injects. -/
theorem loadCycle_forcedBits (P : Config.ClkTaps) (c : Cipher) (b : Bool) : (loadCycle P c true b).ForcedBits := by
  obtain ⟨h1, h2, h3, h4⟩ := loadCycle_bits P c true b
  exact ⟨h1 15 (by decide), h2 16 (by decide), h3 18 (by decide), h4 10 (by decide)⟩

theorem inject_false (c : Cipher) : inject c false = c := by simp [inject]

/-- A load cycle with a 0 and without the load bit leaves the zero state as it is. -/
theorem loadCycle_zeroCipher (P : Config.ClkTaps) (delay : Bool) :
    loadCycle P (zeroCipher delay) false false = zeroCipher delay := by
  rw [loadCycle, clock_zeroCipher, inject_false]

/-- With the load bit it leaves exactly the forced bits there (R298). -/
theorem loadCycle_forced_zeroCipher (P : Config.ClkTaps) (delay : Bool) : loadCycle P (zeroCipher delay) true false =
    { r1 := 0x08000, r2 := 0x010000, r3 := 0x040000, r4 := 0x00400, delay := delay } := by
  simp only [loadCycle_eq, zeroCipher, Cipher.mk.injEq, and_true]
  decide

/-! ## The loops of R295, cycle by cycle -/

section
variable (P P' : Config.ClkTaps) (key : BitVec 64) (frame : BitVec 22) (n : Nat) (c : Cipher) (delay : Bool)

theorem afterKeyBits_succ : afterKeyBits P key (n + 1) c =
    loadCycle P (afterKeyBits P key n c) false (key.getLsbD n) := by
  rw [afterKeyBits, List.range_succ, List.foldl_concat]
  rfl

theorem afterFrameBits_succ : afterFrameBits P frame (n + 1) c =
    loadCycle P (afterFrameBits P frame n c) (n == 21) (frame.getLsbD n) := by
  rw [afterFrameBits, List.range_succ, List.foldl_concat]
  rfl

/-- The zero key leaves the zero state as it is. -/
theorem afterKeyBits_zero : afterKeyBits P 0 n (zeroCipher delay) = zeroCipher delay := by
  induction n with
  | zero => rfl
  | succ n ih =>
    have hbit : (0 : BitVec 64).getLsbD n = false := BitVec.getLsbD_zero
    rw [afterKeyBits_succ, ih, hbit, loadCycle_zeroCipher]

/-- Frame 0 leaves the zero state as it is, up to the last cycle. -/
theorem afterFrameBits_zero (hn : n ≤ 21) : afterFrameBits P 0 n (zeroCipher delay) = zeroCipher delay := by
  induction n with
  | zero => rfl
  | succ n ih =>
    have hlast : (n == 21) = false := beq_false_of_ne (Nat.ne_of_lt hn)
    have hbit : (0 : BitVec 22).getLsbD n = false := BitVec.getLsbD_zero
    rw [afterFrameBits_succ, ih (Nat.le_of_succ_le hn), hlast, hbit, loadCycle_zeroCipher]

/-- LOADFRAME ends with the one load cycle that has `L = 1` (R292). -/
theorem frameLoaded_eq_loadCycle : frameLoaded P key frame delay =
    loadCycle P (afterFrameBits P frame 21 (keyLoaded P key delay)) true (frame.getLsbD 21) :=
  afterFrameBits_succ P frame 21 _

/-- All registers move in a load cycle, so it reads no clock tap (R296). -/
theorem loadCycle_clkTaps (l b : Bool) : loadCycle P c l b = loadCycle P' c l b := by
  rw [loadCycle_eq, loadCycle_eq]

theorem afterKeyBits_clkTaps : afterKeyBits P key n c = afterKeyBits P' key n c := by
  induction n with
  | zero => rfl
  | succ n ih => rw [afterKeyBits_succ, afterKeyBits_succ, ih, loadCycle_clkTaps P P']

theorem afterFrameBits_clkTaps : afterFrameBits P frame n c = afterFrameBits P' frame n c := by
  induction n with
  | zero => rfl
  | succ n ih => rw [afterFrameBits_succ, afterFrameBits_succ, ih, loadCycle_clkTaps P P']

/-! ## The loader carries `DELAY` along (R295) -/

theorem afterKeyBits_withDelay : afterKeyBits P key n { c with delay := delay } =
    { afterKeyBits P key n c with delay := delay } := by
  induction n with
  | zero => rfl
  | succ n ih => rw [afterKeyBits_succ, afterKeyBits_succ, ih]; rfl

theorem afterFrameBits_withDelay : afterFrameBits P frame n { c with delay := delay } =
    { afterFrameBits P frame n c with delay := delay } := by
  induction n with
  | zero => rfl
  | succ n ih => rw [afterFrameBits_succ, afterFrameBits_succ, ih]; rfl

theorem clocked_withDelay : clocked P { c with delay := delay } n = { clocked P c n with delay := delay } := by
  induction n with
  | zero => rfl
  | succ n ih => rw [clocked, clocked, ih]; rfl

/-- The registers after LOADFRAME do not depend on the old `DELAY`, which is carried along. -/
theorem frameLoaded_withDelay (d : Bool) :
    frameLoaded P key frame delay = { frameLoaded P key frame d with delay := delay } := by
  have hzero : zeroCipher delay = { zeroCipher d with delay := delay } := rfl
  rw [frameLoaded, keyLoaded, hzero, afterKeyBits_withDelay, afterFrameBits_withDelay]
  rfl

end

/-- The output generator overwrites `DELAY` without reading it. -/
theorem outputBit_withDelay (P : Config.R2Out) (c : Cipher) (delay : Bool) :
    (outputBit P { c with delay := delay }).2 = (outputBit P c).2 := rfl

/-- R295's function does not depend on the old `DELAY`: the loader carries it along, and PRIME overwrites it. -/
theorem setupState_delay_irrelevant (P : Config.Params) (key : BitVec 64) (frame : BitVec 22) (d d' : Bool) :
    setupState P key frame d = setupState P key frame d' := by
  rw [setupState, frameLoaded_withDelay _ _ _ d d', clocked_withDelay, outputBit_withDelay]
  rfl

/-! ## One edge of a counted loader phase (R291-R293) -/

/-- The phases of the loader in which `CNT` counts cycles: the three loops of R295. -/
def Phase.isLoaderLoop : Phase → Bool
  | .loadKey | .loadFrame | .diffuse => true
  | .idle | .prime | .runA | .runB => false

/-- The change of the cipher state in cycle `i` of a counted loader phase (R291-R293). -/
def State.loadingCycle (s : State) (c : Cipher) (i : Nat) : Cipher :=
  match s.phase with
  | .loadKey => loadCycle s.params.clkTaps c false (s.key.getLsbD i)
  | .loadFrame => loadCycle s.params.clkTaps c (i == 21) (s.frame.getLsbD i)
  | .diffuse => clock s.params.clkTaps c false false
  | .idle | .prime | .runA | .runB => c

/-- The tail of a counted edge, with both outcomes in one state. -/
theorem advanceCount_eq_ite (last : Nat) (p : Phase) (s : State) : advanceCount last p s = { s with
    phase := if s.cnt.toNat = last then p else s.phase, cnt := if s.cnt.toNat = last then 0 else s.cnt + 1 } := by
  rcases advanceCount_cases last p s with ⟨h, he⟩ | ⟨h, he⟩
  · simp only [he, h, if_true, enterPhase]
  · simp only [he, h, if_false]

section
variable {p : Ports} {s : State} {q : Phase} {n : Nat}

theorem Phase.ne_idle_of_isLoaderLoop (h : q.isLoaderLoop = true) : q ≠ .idle := by rintro rfl; cases h

theorem sequencerStep_of_isLoaderLoop (h : s.phase.isLoaderLoop = true) (hc : s.cnt.toNat ≤ s.phase.lastCnt) :
    sequencerStep s = .next (advanceCount s.phase.lastCnt (s.phase.after s.chain)
      (setCipher (s.loadingCycle s.cipher s.cnt.toNat) s)) := by
  unfold sequencerStep State.loadingCycle
  cases hp : s.phase <;> simp only [hp, Phase.isLoaderLoop, Phase.lastCnt] at h hc ⊢
  case loadKey => exact loadKeyEdge_eq_next_iff.mpr ⟨hc, rfl⟩
  case loadFrame => exact loadFrameEdge_eq_next_iff.mpr ⟨hc, rfl⟩
  case diffuse => exact diffuseEdge_eq_next_iff.mpr ⟨hc, rfl⟩
  all_goals cases h

/-- An edge of a counted loader phase does the cycle of its `CNT` and counts, or goes to the next phase. -/
theorem edge_of_isLoaderLoop (hr : p.rst = false) (h : s.phase.isLoaderLoop = true)
    (hc : s.cnt.toNat ≤ s.phase.lastCnt) : edge p s = .next { s with
      cipher := s.loadingCycle s.cipher s.cnt.toNat
      phase := if s.cnt.toNat = s.phase.lastCnt then s.phase.after s.chain else s.phase
      cnt := if s.cnt.toNat = s.phase.lastCnt then 0 else s.cnt + 1 } := by
  rw [edge_busy p s hr (Phase.ne_idle_of_isLoaderLoop h), sequencerStep_of_isLoaderLoop h hc, advanceCount_eq_ite]
  rfl

/-! ## A whole counted loader phase -/

/-- The cipher state after the first `n` cycles of a counted loader phase. -/
def State.loadingCipher (s : State) (n : Nat) : Cipher := (List.range n).foldl s.loadingCycle s.cipher

theorem loadingCipher_succ (s : State) (n : Nat) :
    s.loadingCipher (n + 1) = s.loadingCycle (s.loadingCipher n) n := by
  rw [State.loadingCipher, List.range_succ, List.foldl_concat]
  rfl

/-- The state after the first `n` edges of a counted loader phase, before its last. -/
def State.afterLoading (s : State) (n : Nat) : State :=
  { s with cipher := s.loadingCipher n, cnt := BitVec.ofNat 7 n, inputs := s.inputs.drop n }

/-- The edge numbered `n` of a counted loader phase. -/
theorem step_afterLoading (h : s.phase.isLoaderLoop = true) (hn : n ≤ s.phase.lastCnt) (hr : s.NoReset (n + 1)) :
    step (s.afterLoading n) = .next { s with
      cipher := s.loadingCipher (n + 1)
      phase := if n = s.phase.lastCnt then s.phase.after s.chain else s.phase
      cnt := if n = s.phase.lastCnt then 0 else BitVec.ofNat 7 (n + 1)
      inputs := s.inputs.drop (n + 1) } := by
  have hcnt : (BitVec.ofNat 7 n).toNat = n := Nat.mod_eq_of_lt (by have := s.phase.lastCnt_lt; omega)
  have hrst : (s.afterLoading n).portsNow.rst = false := noReset_at hr n (Nat.lt_succ_self n)
  have hedge := edge_of_isLoaderLoop (s := dropSample (s.afterLoading n)) hrst h (hcnt.trans_le hn)
  simp only [dropSample, State.afterLoading, hcnt] at hedge
  rw [loadingCipher_succ, BitVec.ofNat_add, ← List.tail_drop]
  exact hedge

/-- A counted loader phase before its last edge, by induction on the edges. -/
theorem runEdges_afterLoading (h : s.phase.isLoaderLoop = true) (hc : s.cnt = 0) (hn : n ≤ s.phase.lastCnt)
    (hr : s.NoReset n) : runEdges n s = .next (s.afterLoading n) := by
  induction n with
  | zero =>
    have hstart : s.afterLoading 0 = s := congrArg (fun c => { s with cnt := c }) hc.symm
    rw [hstart, runEdges]
  | succ n ih =>
    have hstep := step_afterLoading h (Nat.le_of_succ_le hn) hr
    rw [if_neg (Nat.ne_of_lt hn), if_neg (Nat.ne_of_lt hn)] at hstep
    exact runEdges_snoc (ih (Nat.le_of_succ_le hn) (noReset_mono hr n.le_succ)) hstep

/-- A whole counted loader phase: all its cycles, and then the next phase. -/
theorem runEdges_loadingPhase (hp : s.phase = q) (h : q.isLoaderLoop = true) (hc : s.cnt = 0)
    (hr : s.NoReset (q.lastCnt + 1)) : runEdges (q.lastCnt + 1) s = .next { s with
      cipher := s.loadingCipher (q.lastCnt + 1), phase := q.after s.chain, cnt := 0
      inputs := s.inputs.drop (q.lastCnt + 1) } := by
  subst hp
  have hstep := step_afterLoading h le_rfl hr
  rw [if_pos rfl, if_pos rfl] at hstep
  exact runEdges_snoc (runEdges_afterLoading h hc le_rfl (noReset_mono hr (Nat.le_succ _))) hstep

/-! The cycles of a phase are R295's loop for it (R291-R293). -/

theorem loadingCipher_of_loadKey (hp : s.phase = .loadKey) :
    s.loadingCipher n = afterKeyBits s.params.clkTaps s.key n s.cipher := by
  induction n with
  | zero => rfl
  | succ n ih => rw [loadingCipher_succ, afterKeyBits_succ, ih, State.loadingCycle, hp]

theorem loadingCipher_of_loadFrame (hp : s.phase = .loadFrame) :
    s.loadingCipher n = afterFrameBits s.params.clkTaps s.frame n s.cipher := by
  induction n with
  | zero => rfl
  | succ n ih => rw [loadingCipher_succ, afterFrameBits_succ, ih, State.loadingCycle, hp]

theorem loadingCipher_of_diffuse (hp : s.phase = .diffuse) :
    s.loadingCipher n = clocked s.params.clkTaps s.cipher n := by
  induction n with
  | zero => rfl
  | succ n ih => rw [loadingCipher_succ, clocked, ih, State.loadingCycle, hp]

/-! ## The loader, from its start to the PRIME edge (R295) -/

theorem runEdges_loadKey (hp : s.phase = .loadKey) (hc : s.cnt = 0) (hr : s.NoReset 64) :
    runEdges 64 s = .next { s with
      cipher := afterKeyBits s.params.clkTaps s.key 64 s.cipher, phase := .loadFrame, cnt := 0
      inputs := s.inputs.drop 64 } := by
  rw [← loadingCipher_of_loadKey hp]
  exact runEdges_loadingPhase hp rfl hc hr

theorem runEdges_loadFrame (hp : s.phase = .loadFrame) (hc : s.cnt = 0) (hr : s.NoReset 22) :
    runEdges 22 s = .next { s with
      cipher := afterFrameBits s.params.clkTaps s.frame 22 s.cipher, phase := .diffuse, cnt := 0
      inputs := s.inputs.drop 22 } := by
  rw [← loadingCipher_of_loadFrame hp]
  exact runEdges_loadingPhase hp rfl hc hr

theorem runEdges_diffuse (hp : s.phase = .diffuse) (hc : s.cnt = 0) (hr : s.NoReset 100) :
    runEdges 100 s = .next { s with
      cipher := clocked s.params.clkTaps s.cipher 100, phase := .prime, cnt := 0
      inputs := s.inputs.drop 100 } := by
  rw [← loadingCipher_of_diffuse hp]
  exact runEdges_loadingPhase hp rfl hc hr

/-- The PRIME edge as a step (R294). -/
theorem runEdges_prime (hp : s.phase = .prime) (hr : s.NoReset 1) :
    runEdges 1 s = .next { s with
      cipher := (outputBit s.params.r2Out s.cipher).2, phase := if s.chain then .runA else .idle, cnt := 0
      chain := s.chain && s.chainHeld, inputs := s.inputs.drop 1 } := by
  rw [List.drop_one]
  exact runEdges_one s _ (primeEdgeFillsTheDelay (dropSample s) s.portsNow hp (noReset_at hr 0 Nat.one_pos))

/-- The loader from zeroed registers on, of a `SETUP` or a `GENERATE`: 187 edges compute R295's function, and `CHAIN`
decides where the sequence goes (R294). -/
theorem runEdges_loader {d : Bool} (hp : s.phase = .loadKey) (hc : s.cnt = 0) (hz : s.cipher = zeroCipher d)
    (hr : s.NoReset 187) : runEdges 187 s = .next { s with
      cipher := setupState s.params s.key s.frame d, phase := if s.chain then .runA else .idle, cnt := 0
      chain := s.chain && s.chainHeld, inputs := s.inputs.drop 187 } := by
  have rest {t : State} (m k : Nat) (hk : m + k ≤ 187) (ht : t.inputs = s.inputs.drop m) : t.NoReset k :=
    noReset_drop (noReset_mono hr hk) ht
  rw [runEdges_add 64 123 s _ (runEdges_loadKey hp hc (noReset_mono hr (by decide))),
    runEdges_add 22 101 _ _ (runEdges_loadFrame rfl rfl (rest 64 22 (by decide) rfl)),
    runEdges_add 100 1 _ _ (runEdges_diffuse rfl rfl (rest 86 100 (by decide) List.drop_drop)),
    runEdges_prime rfl (rest 186 1 (by decide) (by simp only [List.drop_drop]))]
  simp only [List.drop_drop, hz]
  rfl

end

/-! ## The statements -/

/-- Settles O40: the accepting edge zeroes the registers and starts the loader, whose 187 edges compute R295's
function. -/
theorem setupComputesTheLoaderFunction : Obligations.SetupComputesTheLoaderFunction := by
  refine ⟨fun s d hp hk hw hn => ?_, setupState_delay_irrelevant⟩
  have hstep : step s = .next (startLoader false (dropSample s)) := by
    rw [step_eq_exec hp hw, decode_setup]
    exact exec_eq_next_iff.mpr (.setup hk)
  have hrest : (startLoader false (dropSample s)).NoReset 187 :=
    noReset_drop (n := 1) hn (by simp)
  rw [runEdges_succ 187 s _ hstep, runEdges_loader rfl rfl rfl hrest]
  simp [startLoader, enterPhase, setCipher, dropSample]

/-- Settles O47: zeros stay zeros up to the last frame cycle, and that cycle, in R295's loop and on the machine, places
the forced bits. -/
theorem lastFrameBitPlacesTheForcedBits : Obligations.LastFrameBitPlacesTheForcedBits := by
  refine ⟨fun P d => ⟨afterKeyBits_zero P 64 d, ?_⟩, fun P key frame d => ?_, fun s hp hc hr => ?_⟩
  · rw [frameLoaded_eq_loadCycle, keyLoaded, afterKeyBits_zero, afterFrameBits_zero P 21 d le_rfl]
    exact loadCycle_forced_zeroCipher P d
  · rw [frameLoaded_eq_loadCycle]
    obtain ⟨h1, h2, h3, h4⟩ := loadCycle_forcedBits P (afterFrameBits P frame 21 (keyLoaded P key d)) (frame.getLsbD _)
    exact ⟨h1, h2, h3, h4⟩
  · have hlast : s.cnt.toNat = 21 := congrArg BitVec.toNat hc
    obtain ⟨h1, h2, h3, h4⟩ := loadCycle_forcedBits s.params.clkTaps s.cipher (s.frame.getLsbD 21)
    have hstep := edge_busy s.portsNow (dropSample s) hr (by simp [hp])
    simp only [sequencerStep, dropSample_phase, hp, loadFrameEdge_last (dropSample s) hlast] at hstep
    exact ⟨_, hstep, rfl, h1, h2, h3, h4⟩

/-- Settles O17, by the meaning of `KEYCLR`. -/
theorem keyclrStartsANewKey : Obligations.KeyclrStartsANewKey := fun _ => rfl

/-- Settles O19: the decoder cuts the operand, and the command stores what it is given. -/
theorem frameStoresTheLow22Bits : Obligations.FrameStoresTheLow22Bits := by
  refine ⟨fun _ _ => rfl, fun s d hp hw => ?_⟩
  have hlow : BitVec.ofNat 22 (d.toNat % 2 ^ 22) = d.setWidth 22 := BitVec.eq_of_toNat_eq (by simp)
  rw [step_eq_exec hp hw, decode_frame, hlow]
  rfl

/-- Settles O20, by the accepted case of `SETUP`. -/
theorem setupStartsTheLoader : Obligations.SetupStartsTheLoader := fun _ hk => exec_eq_next_iff.mpr (.setup hk)

/-- Settles O22, by the rejected cases of both commands. -/
theorem wrongKeyLengthOnlySetsItsFlag : Obligations.WrongKeyLengthOnlySetsItsFlag :=
  fun _ hk => ⟨exec_eq_next_iff.mpr (.setupRejected hk), exec_eq_next_iff.mpr (.generateRejected hk)⟩

/-- Settles O35: the edge of a counted phase, whose cycle is the load cycle with the key bit. -/
theorem loadKeyEdgeTakesOneKeyBit : Obligations.LoadKeyEdgeTakesOneKeyBit := by
  intro s p hp hc hr
  have hlast : s.cnt.toNat = 63 ↔ s.cnt = 63 := BitVec.toNat_inj (y := 63)
  have hedge := edge_of_isLoaderLoop hr (s := s) (by rw [hp]; rfl) (by rw [hp]; exact hc)
  simp only [State.loadingCycle, hp, Phase.lastCnt, Phase.after, hlast] at hedge
  have hbits := loadCycle_bits s.params.clkTaps s.cipher false (s.key.getLsbD s.cnt.toNat)
  simp only [Bool.false_eq_true, false_and, if_false] at hbits
  exact ⟨_, hedge, rfl, rfl, hbits⟩

/-- Settles O36: the edge of a counted phase, whose cycle is the load cycle with the frame bit, at the last edge with
the load bit. -/
theorem loadFrameEdgeTakesOneFrameBit : Obligations.LoadFrameEdgeTakesOneFrameBit := by
  intro s p hp hc hr
  have hlast : s.cnt.toNat = 21 ↔ s.cnt = 21 := BitVec.toNat_inj (y := 21)
  have hedge := edge_of_isLoaderLoop hr (s := s) (by rw [hp]; rfl) (by rw [hp]; exact hc)
  simp only [State.loadingCycle, hp, Phase.lastCnt, Phase.after, beq_eq_decide, hlast] at hedge
  have hbits := loadCycle_bits s.params.clkTaps s.cipher (decide (s.cnt = 21)) (s.frame.getLsbD s.cnt.toNat)
  simp only [decide_eq_true_eq] at hbits
  exact ⟨_, hedge, rfl, rfl, hbits⟩

/-- Settles O37: the edge of a counted phase, whose cycle is the clock controller. -/
theorem diffuseEdgeClocksByMajority : Obligations.DiffuseEdgeClocksByMajority := by
  intro s p hp hc hr
  have hlast : s.cnt.toNat = 99 ↔ s.cnt = 99 := BitVec.toNat_inj (y := 99)
  have hedge := edge_of_isLoaderLoop hr (s := s) (by rw [hp]; rfl) (by rw [hp]; exact hc)
  simpa only [State.loadingCycle, hp, Phase.lastCnt, Phase.after, hlast] using hedge

/-- Settles O48: a load cycle reads no clock tap, and of the final state the output generator writes `DELAY` alone. -/
theorem loadedRegistersIgnoreTheParameters : Obligations.LoadedRegistersIgnoreTheParameters := by
  refine ⟨fun P P' key frame d => ?_, fun _ _ _ _ _ _ => rfl⟩
  have hkey : keyLoaded P key d = keyLoaded P' key d := afterKeyBits_clkTaps P P' key 64 _
  exact ⟨hkey, by rw [frameLoaded, frameLoaded, hkey, afterFrameBits_clkTaps P P']⟩

end Sys2Proof.Machine

/-! The statements about file 43_keystream.md: the start of the engine by `RUN` (R320) and `GENERATE` (R323), its edge
(R321), the windows of one sequence that a run of it leaves (R322), and `GENERATE` as `SETUP` and then `RUN` (R324).
`RUN` and `GENERATE` share the engine, so its 228 edges are run once, from the state where they start. -/

namespace Sys2Proof.Machine

/-! ## The cipher state and the bits of the engine, by R322's sequence -/

section
variable (P : Config.Params) (c : Cipher) (n : Nat)

/-- `DELAY` plays no part in the clocking of the next cycle, so after the first keystream cycle the engine's state is
R322's `S_n` with the output generator applied once. -/
theorem engineCipher_succ : engineCipher P c (n + 1) = (outputBit P.r2Out (clocked P.clkTaps c (n + 1))).2 := by
  induction n with
  | zero => rfl
  | succ n ih => rw [engineCipher, ih]; rfl

/-- The first bit that the engine extracts is the old `DELAY` (R322). -/
theorem engineBit_zero : engineBit P c 0 = c.delay := rfl

/-- Every later bit is the combiner's bit of the state one cycle before (R322). -/
theorem engineBit_succ : engineBit P c (n + 1) = combine P.r2Out (clocked P.clkTaps c (n + 1)) := by
  rw [engineBit, runCycle_bit, engineCipher_succ, outputBit_delay]

end

/-! ## One edge of the engine (R321) -/

section
variable {s t u : State} {k : Nat}

/-- What an edge of the engine writes besides its stream bit. -/
theorem SequencerEdge.eq_of_engine (h : SequencerEdge s t) (hp : s.phase = .runA ∨ s.phase = .runB) : t = { s with
    cipher := (runCycle s.params s.cipher).2
    sa := t.sa
    sb := t.sb
    phase := if s.cnt = 113 then (if s.phase = .runA then .runB else .idle) else s.phase
    cnt := if s.cnt = 113 then 0 else s.cnt + 1
    chain := if s.cnt = 113 ∧ s.phase = .runB then false else s.chain
    ksValid := if s.cnt = 113 ∧ s.phase = .runB then true else s.ksValid } := by
  have hlast : s.cnt = 113 ↔ s.cnt.toNat = 113 := (BitVec.toNat_inj (y := 113)).symm
  simp only [hlast]
  cases h with
  | loadKey hq | loadFrame hq | diffuse hq | prime hq => simp [hq] at hp
  | runA hq => simp [advanceCount_eq_ite, setCipher, hq]
  | runBMid hq hc => simp [hq, Nat.ne_of_lt hc]
  | runBLast hq hc => simp [hq, hc]

/-- An edge of the engine replaces one bit of one stream, at position `CNT`, by the old `DELAY`. -/
theorem SequencerEdge.stream_bits (h : SequencerEdge s t) (hp : s.phase = .runA ∨ s.phase = .runB)
    (hc : s.cnt.toNat < 114) (j : Nat) :
    t.sa.getLsbD j = (if s.phase = .runA ∧ j = s.cnt.toNat then s.cipher.delay else s.sa.getLsbD j) ∧
    t.sb.getLsbD j = (if s.phase = .runB ∧ j = s.cnt.toNat then s.cipher.delay else s.sb.getLsbD j) := by
  obtain ⟨-, hbitA, hbitB⟩ := h.cipher_and_bit_of_engine hp hc
  constructor
  · split_ifs with hj
    · obtain ⟨hA, rfl⟩ := hj
      exact hbitA hA
    · exact not_not.mp fun hne => hj (h.of_sa_ne hne)
  · split_ifs with hj
    · obtain ⟨hB, rfl⟩ := hj
      exact hbitB hB
    · exact not_not.mp fun hne => hj (h.of_sb_ne hne)

/-! ## The engine's run -/

/-- The place one engine edge after a place on the timeline: the next one on it, and at its end an idle block. -/
theorem nextPlace_engineAt_eq_ite (chained : Bool) (hk : k < 228) :
    nextPlace chained (engineAt k) = if k + 1 < 228 then engineAt (k + 1) else (.idle, 0) := by
  rcases Nat.lt_or_eq_of_le (Nat.le_of_lt_succ hk) with hlt | rfl
  · rw [if_pos (Nat.succ_lt_succ hlt), nextPlace_engineAt chained hlt]
  · rfl

theorem State.SameCommandFields.trans (h : s.SameCommandFields t) (h' : t.SameCommandFields u) :
    s.SameCommandFields u where
  key := h'.key.trans h.key
  keycnt := h'.keycnt.trans h.keycnt
  frame := h'.frame.trans h.frame
  rdata := h'.rdata.trans h.rdata
  errKeylen := h'.errKeylen.trans h.errKeylen
  errCmd := h'.errCmd.trans h.errCmd

/-- The host's samples are no fields of the block. -/
theorem State.SameCommandFields.of_dropSample (h : (dropSample s).SameCommandFields t) : s.SameCommandFields t :=
  ⟨h.key, h.keycnt, h.frame, h.rdata, h.errKeylen, h.errCmd⟩

/-- A state is known by the fields that a sequencer edge writes, beside a state that agrees in the others. -/
theorem State.SameCommandFields.eq_with (h : s.SameCommandFields t) (hparams : t.params = s.params)
    (hheld : t.chainHeld = s.chainHeld) : t = { s with
      cipher := t.cipher, sa := t.sa, sb := t.sb, ksValid := t.ksValid, phase := t.phase, cnt := t.cnt
      chain := t.chain, inputs := t.inputs } := by
  rw [← h.key, ← h.keycnt, ← h.frame, ← h.rdata, ← h.errKeylen, ← h.errCmd, ← hparams, ← hheld]

/-- The state `u` after `k` of the engine's 228 edges from the state `s` on, with everything but `CHAIN` and `KS_VALID`,
which the last edge sets. -/
structure EngineRun (s : State) (k : Nat) (u : State) : Prop where
  run : runEdges k s = .next u
  place : u.place = if k < 228 then engineAt k else (.idle, 0)
  bits : AfterEngineEdges s.params s.cipher k u
  command : s.SameCommandFields u
  chainHeld : u.chainHeld = s.chainHeld
  inputs : u.inputs = s.inputs.drop k

/-- Where the engine starts. -/
theorem EngineRun.start (hp : s.phase = .runA) (hc : s.cnt = 0) : EngineRun s 0 s where
  run := rfl
  place := by rw [State.place, hp, hc]; rfl
  bits := ⟨rfl, rfl, nofun, nofun⟩
  command := ⟨rfl, rfl, rfl, rfl, rfl, rfl⟩
  chainHeld := rfl
  inputs := rfl

/-- One more edge of the engine. -/
theorem EngineRun.succ (h : EngineRun s k u) (hk : k < 228) (hn : s.NoReset (k + 1)) :
    ∃ t, SequencerEdge (dropSample u) t ∧ EngineRun s (k + 1) t := by
  have hplace : u.place = engineAt k := h.place.trans (if_pos hk)
  have hphase : u.phase = (engineAt k).1 := congrArg Prod.fst hplace
  have hcnt : u.cnt.toNat = (engineAt k).2 := congrArg Prod.snd hplace
  obtain ⟨hrun, hc⟩ := engineAt_inRange (Nat.le_of_lt_succ hk)
  rw [← hphase] at hrun hc
  rw [← hcnt] at hc
  have busy : u.phase ≠ .idle := by intro hi; rw [hi] at hrun; cases hrun
  have hr : u.portsNow.rst = false := by
    rw [State.portsNow, h.inputs]
    exact noReset_at hn k (Nat.lt_succ_self k)
  obtain ⟨t, hstep, he⟩ := step_busy busy hr hc
  obtain ⟨-, hheld, hinputs⟩ := step_sameModelFields hstep
  have hplace' : t.place = nextPlace u.chain u.place := he.place_eq hc
  refine ⟨t, he, ?_⟩
  exact {
    run := runEdges_snoc h.run hstep
    place := by rw [hplace', hplace, nextPlace_engineAt_eq_ite u.chain hk]
    bits := h.bits.dropSample.succ he hplace hk
    command := h.command.trans he.sameCommandFields.of_dropSample
    chainHeld := hheld.trans h.chainHeld
    inputs := by rw [hinputs, dropSample_inputs, h.inputs, List.tail_drop] }

/-- Every edge of the engine, by induction. -/
theorem exists_engineRun (hp : s.phase = .runA) (hc : s.cnt = 0) (hk : k ≤ 228) (hn : s.NoReset k) :
    ∃ u, EngineRun s k u := by
  induction k with
  | zero => exact ⟨s, .start hp hc⟩
  | succ k ih =>
    obtain ⟨u, hu⟩ := ih (Nat.le_of_succ_le hk) (noReset_mono hn k.le_succ)
    obtain ⟨t, -, ht⟩ := hu.succ hk hn
    exact ⟨t, ht⟩

/-- The block after a whole run of the engine from the state `s` on (R320-R322): the windows of the sequence in `SA` and
`SB`, and its last state. -/
def State.withKeystream (s : State) : State := { s with
  cipher := (outputBit s.params.r2Out (clocked s.params.clkTaps s.cipher 228)).2
  sa := BitVec.ofFnLE fun j => engineBit s.params s.cipher j
  sb := BitVec.ofFnLE fun j => engineBit s.params s.cipher (114 + j)
  ksValid := true, phase := .idle, cnt := 0, chain := false }

theorem State.withKeystream_sa_getLsbD (s : State) {i : Nat} (hi : i < 114) :
    s.withKeystream.sa.getLsbD i = engineBit s.params s.cipher i := by
  rw [State.withKeystream, BitVec.getLsbD_ofFnLE, dif_pos hi]

theorem State.withKeystream_sb_getLsbD (s : State) {i : Nat} (hi : i < 114) :
    s.withKeystream.sb.getLsbD i = engineBit s.params s.cipher (114 + i) := by
  rw [State.withKeystream, BitVec.getLsbD_ofFnLE, dif_pos hi]

/-- After all 228 bits the streams are known bit by bit. -/
theorem AfterEngineEdges.streams_eq {P : Config.Params} {c : Cipher} (h : AfterEngineEdges P c 228 u) :
    u.sa = BitVec.ofFnLE (fun j => engineBit P c j) ∧ u.sb = BitVec.ofFnLE (fun j => engineBit P c (114 + j)) := by
  constructor <;> refine BitVec.eq_of_getLsbD_eq fun j hj => ?_ <;> rw [BitVec.getLsbD_ofFnLE, dif_pos hj]
  · exact h.sa j hj (by omega)
  · exact h.sb j hj (by omega)

/-- The engine from its start to its last edge, of a `RUN` or a `GENERATE`. -/
theorem runEdges_engine (hp : s.phase = .runA) (hc : s.cnt = 0) (hn : s.NoReset 228) :
    runEdges 228 s = .next { s.withKeystream with inputs := s.inputs.drop 228 } := by
  obtain ⟨u, hu⟩ := exists_engineRun hp hc (by decide : 227 ≤ 228) (noReset_mono hn (by decide))
  obtain ⟨t, he, ht⟩ := hu.succ (by decide) hn
  have hphase : u.phase = .runB := congrArg Prod.fst hu.place
  have hcnt : u.cnt = 113 := BitVec.eq_of_toNat_eq (congrArg Prod.snd hu.place)
  obtain ⟨hsa, hsb⟩ := ht.bits.streams_eq
  have hend := he.eq_of_engine (.inr hphase)
  simp only [dropSample_phase, dropSample_cnt, hphase, hcnt] at hend
  have hks : t.ksValid = true := congrArg State.ksValid hend
  have hidle : t.phase = .idle := congrArg State.phase hend
  have hzero : t.cnt = 0 := congrArg State.cnt hend
  have hchain : t.chain = false := congrArg State.chain hend
  have heq := ht.command.eq_with ht.bits.params ht.chainHeld
  rw [ht.bits.cipher, engineCipher_succ, hsa, hsb, hks, hidle, hzero, hchain, ht.inputs] at heq
  exact ht.run.trans (congrArg Host.Outcome.next heq)

end

/-! ## Whole `RUN`s and `GENERATE`s -/

section
variable {s : State} {w : CmdWord}

/-- `RUN` with its accepting edge (R320). -/
theorem runEdges_run (hp : s.phase = .idle) (hw : s.Presents w) (hrun : decode w = .run) (hn : s.NoReset 229) :
    runEdges 229 s = .next { s.withKeystream with inputs := s.inputs.drop 229 } := by
  have hstep : step s = .next { enterPhase .runA (dropSample s) with ksValid := false, chain := false } := by
    rw [step_eq_exec hp hw, hrun]
    exact exec_eq_next_iff.mpr .run
  rw [runEdges_succ 228 s _ hstep, runEdges_engine rfl rfl (noReset_drop (n := 1) hn (by simp [enterPhase]))]
  simp [State.withKeystream, enterPhase, dropSample]

/-- `GENERATE` with its accepting edge (R323): the loader's function, and the engine from its state on. -/
theorem runEdges_generate (hp : s.phase = .idle) (hk : s.keycnt = 8) (hw : s.Presents w)
    (hgen : decode w = .generate) (hn : s.NoReset 416) :
    runEdges 416 s = .next { { s with
      cipher := setupState s.params s.key s.frame s.cipher.delay, errKeylen := false }.withKeystream with
        inputs := s.inputs.drop 416 } := by
  have hstep : step s = .next { startLoader true (dropSample s) with ksValid := false } := by
    rw [step_eq_exec hp hw, hgen]
    exact exec_eq_next_iff.mpr (.generate hk)
  have hrest {t : State} (m k : Nat) (hmk : m + k ≤ 416) (ht : t.inputs = s.inputs.drop m) : t.NoReset k :=
    noReset_drop (noReset_mono hn hmk) ht
  rw [runEdges_succ 415 s _ hstep,
    runEdges_add 187 228 _ _ (runEdges_loader rfl rfl rfl (hrest 1 187 (by decide) (by simp))),
    runEdges_engine rfl rfl (hrest 188 228 (by decide) (by simp))]
  simp [State.withKeystream, startLoader, enterPhase, setCipher, dropSample]

/-- The host that presents a word at the first edge of its samples. -/
theorem presents_of_inputs {rest : List Ports} (hin : s.inputs = presentPorts w :: rest) : s.Presents w := by
  have hnow : s.portsNow = presentPorts w := by rw [State.portsNow, hin]; rfl
  rw [State.Presents, hnow]
  exact ⟨rfl, rfl, presentPorts_cmd w⟩

/-- Samples without a reset. -/
theorem noReset_of_forall (h : ∀ p ∈ s.inputs, p.rst = false) (n : Nat) : s.NoReset n :=
  fun p hp => h p (List.mem_of_mem_take hp)

/-- A host that presents a word does not reset the block. -/
theorem presentPorts_cons_noReset {rest : List Ports} (h : ∀ p ∈ rest, p.rst = false) :
    ∀ p ∈ presentPorts w :: rest, p.rst = false := List.forall_mem_cons.mpr ⟨rfl, h⟩

/-- `SETUP`, and `RUN` at the first edge after it. -/
theorem runEdges_setup_run {ds dr : Word} {hs hr : List Ports} (hp : s.phase = .idle) (hk : s.keycnt = 8)
    (hlen : hs.length = 187)
    (hin : s.inputs = presentPorts ((0x06 : Byte) ++ ds) :: (hs ++ presentPorts ((0x07 : Byte) ++ dr) :: hr))
    (hsr : ∀ p ∈ hs, p.rst = false) (hrr : ∀ p ∈ hr, p.rst = false) :
    runEdges (188 + 229) s = .next { { s with
      cipher := setupState s.params s.key s.frame s.cipher.delay, errKeylen := false }.withKeystream with
        inputs := hr.drop 228 } := by
  have hrun : ∀ p ∈ presentPorts ((0x07 : Byte) ++ dr) :: hr, p.rst = false := presentPorts_cons_noReset hrr
  have hall : ∀ p ∈ s.inputs, p.rst = false := by
    rw [hin]
    exact presentPorts_cons_noReset (List.forall_mem_append.mpr ⟨hsr, hrun⟩)
  have hdrop : s.inputs.drop 188 = presentPorts ((0x07 : Byte) ++ dr) :: hr := by
    rw [hin, List.drop_succ_cons, List.drop_left' hlen]
  have hsetup := setupComputesTheLoaderFunction.1 s ds hp hk (presents_of_inputs hin) (noReset_of_forall hall 188)
  rw [hdrop] at hsetup
  rw [runEdges_add 188 229 s _ hsetup,
    runEdges_run rfl (presents_of_inputs rfl) (decode_run dr) (noReset_of_forall hrun 229)]
  rfl

end

/-! ## The statements -/

/-- Settles O39, from what an engine edge writes and the one stream bit among it. -/
theorem engineEdgeWritesOneStreamBit : Obligations.EngineEdgeWritesOneStreamBit := by
  intro s p hp hc hr
  have busy : s.phase ≠ .idle := by rcases hp with hp | hp <;> simp [hp]
  have hrange : s.cnt.toNat ≤ s.phase.lastCnt := by rcases hp with hp | hp <;> rw [hp] <;> exact hc
  obtain ⟨t, ht⟩ := sequencerStep_next s hrange
  have he : SequencerEdge s t := (sequencerStep_eq_next_iff busy).mp ht
  exact ⟨t, (edge_busy p s hr busy).trans ht, he.eq_of_engine hp,
    fun j _ => he.stream_bits hp (Nat.lt_succ_of_le hc) j⟩

/-- Settles O41: the bits of the engine's run are R322's, and the output generator leaves a primed state. -/
theorem runWritesConsecutiveWindows : Obligations.RunWritesConsecutiveWindows := by
  refine ⟨fun s d hp hw hn => ⟨_, runEdges_run hp hw (decode_run d) hn, rfl, ?_, fun i h1 hi => ?_, fun i hi => ?_⟩,
    fun P key frame d => outputBit_primes _ _⟩
  · exact (s.withKeystream_sa_getLsbD (by decide)).trans (engineBit_zero s.params s.cipher)
  · obtain ⟨n, rfl⟩ := Nat.exists_eq_add_of_le' h1
    exact (s.withKeystream_sa_getLsbD hi).trans (engineBit_succ s.params s.cipher n)
  · have hsucc : 114 + i = 113 + i + 1 := by omega
    rw [hsucc, ← engineBit_succ, ← hsucc]
    exact s.withKeystream_sb_getLsbD hi

/-- Settles O42: both run the engine from the state of the loader's function (R324). -/
theorem generateEqualsSetupThenRun : Obligations.GenerateEqualsSetupThenRun := by
  intro s dg ds dr hg hs hr hp hk hlen hgr hsr hrr
  have hgen := runEdges_generate (s := { s with inputs := presentPorts ((0x08 : Byte) ++ dg) :: hg }) hp hk
    (presents_of_inputs rfl) (decode_generate dg) (noReset_of_forall (presentPorts_cons_noReset hgr) 416)
  exact ⟨_, _, hgen, runEdges_setup_run (s := { s with inputs := _ }) hp hk hlen rfl hsr hrr, rfl, rfl, rfl, rfl⟩

/-- Settles O21, by the accepted case of `GENERATE`. -/
theorem generateStartsTheChainedLoader : Obligations.GenerateStartsTheChainedLoader :=
  fun _ hk => exec_eq_next_iff.mpr (.generate hk)

/-- Settles O23: `RUN` has one case, whatever the key. -/
theorem runStartsTheEngine : Obligations.RunStartsTheEngine := fun _ => exec_eq_next_iff.mpr .run

end Sys2Proof.Machine

/-! The statements about file 44_host_control.md: the commands `NOP` (R350) and `CLRERR` (R352), each by its case of what
a command can answer. -/

namespace Sys2Proof.Machine

/-- Settles O13, by the case of `NOP` (R350), whose answer is the state it was given. -/
theorem nopChangesNothing : Obligations.NopChangesNothing := fun _ => exec_eq_next_iff.mpr .nop

/-- Settles O25, by the case of `CLRERR` (R352), whose answer `clearErrors` writes the two flags alone. -/
theorem clrerrClearsBothFlags : Obligations.ClrerrClearsBothFlags := fun _ => exec_eq_next_iff.mpr .clrerr

end Sys2Proof.Machine

/-! The statement about file 60_exceptions.md: the block never hangs (R391). An accepted command ends with R420's
timeline. From any state of the invariant, the edges a whole sequence still has to make are a measure that each edge of
a busy block lowers. -/

namespace Sys2Proof.Machine

/-! ## The edges of a command -/

/-- A command takes at least its accepting edge, and at most the 416 of a `GENERATE` (R420). -/
theorem edgesOf_bounds (i : Instr) (keycnt : BitVec 4) : 1 ≤ edgesOf i keycnt ∧ edgesOf i keycnt ≤ 416 := by
  rcases edgesOf_cases i keycnt with he | ⟨-, -, he⟩ | ⟨-, he⟩ | ⟨-, -, he⟩ <;> simp [he]

/-! ## The edges a sequence has still to make -/

/-- The edges from the first cycle of a phase to the end of a chained sequence, its longest way to IDLE (R391): the
cycles of LOADKEY, LOADFRAME, DIFFUSE, PRIME, RUNA and RUNB. -/
def Phase.edgesToIdle : Phase → Nat
  | .idle => 0
  | .loadKey => 64 + 22 + 100 + 1 + 114 + 114
  | .loadFrame => 22 + 100 + 1 + 114 + 114
  | .diffuse => 100 + 1 + 114 + 114
  | .prime => 1 + 114 + 114
  | .runA => 114 + 114
  | .runB => 114

/-- The edges left from a place in the sequence: those of its phase and the later ones, less the cycles made. -/
def edgesLeft (x : Phase × Nat) : Nat := x.1.edgesToIdle - x.2

theorem Phase.edgesToIdle_le (p : Phase) : p.edgesToIdle ≤ 415 := by cases p <;> decide

theorem edgesLeft_le (x : Phase × Nat) : edgesLeft x ≤ 415 := (Nat.sub_le _ _).trans x.1.edgesToIdle_le

/-- A phase has all its cycles to make before the next one starts; PRIME may go to IDLE instead of RUNA (R294). -/
theorem Phase.edgesToIdle_after {p : Phase} (chained : Bool) (busy : p ≠ .idle) :
    p.lastCnt + (p.after chained).edgesToIdle < p.edgesToIdle := by
  cases p with
  | idle => exact absurd rfl busy
  | loadKey | loadFrame | diffuse | prime | runA | runB => revert chained; decide

/-- The next place has fewer edges left, whether it is in the same phase or the next. -/
theorem edgesLeft_nextPlace {x : Phase × Nat} (chained : Bool) (busy : x.1 ≠ .idle) (hc : x.2 ≤ x.1.lastCnt) :
    edgesLeft (nextPlace chained x) < edgesLeft x := by
  have hafter := Phase.edgesToIdle_after chained busy
  unfold nextPlace
  split <;> simp only [edgesLeft] <;> omega

/-- A busy block of the invariant has an edge to make. -/
theorem State.Inv.edgesLeft_pos {s : State} (hs : s.Inv) (busy : s.phase ≠ .idle) : 0 < edgesLeft s.place :=
  Nat.zero_lt_of_lt (edgesLeft_nextPlace (x := s.place) s.chain busy hs.cnt_le)

/-- An edge of a busy block of the invariant answers, and leaves fewer edges to make. -/
theorem step_edgesLeft {s : State} (hs : s.Inv) (busy : s.phase ≠ .idle) (hr : s.portsNow.rst = false) :
    ∃ t, step s = .next t ∧ edgesLeft t.place < edgesLeft s.place := by
  obtain ⟨t, hstep, he⟩ := step_busy busy hr hs.cnt_le
  have hplace : t.place = nextPlace s.chain s.place := he.place_eq hs.cnt_le
  exact ⟨t, hstep, hplace ▸ edgesLeft_nextPlace s.chain busy hs.cnt_le⟩

/-- A state of the invariant is back in IDLE after at most the edges it has left, by induction on their bound. -/
theorem runEdges_idle_of_edgesLeft {n : Nat} {s : State} (hs : s.Inv) (hn : s.NoReset n)
    (hleft : edgesLeft s.place ≤ n) : ∃ m t, m ≤ n ∧ runEdges m s = .next t ∧ t.phase = .idle := by
  induction n generalizing s with
  | zero =>
    have hp : s.phase = .idle := by_contra fun busy => Nat.not_le_of_gt (hs.edgesLeft_pos busy) hleft
    exact ⟨0, s, le_rfl, rfl, hp⟩
  | succ n ih =>
    by_cases hp : s.phase = .idle
    · exact ⟨0, s, Nat.zero_le _, rfl, hp⟩
    · obtain ⟨u, hstep, hlt⟩ := step_edgesLeft hs hp (noReset_at hn 0 (Nat.succ_pos n))
      obtain ⟨-, -, hinputs⟩ := step_sameModelFields hstep
      have hnu : u.NoReset n := noReset_drop (n := 1) (Nat.add_comm n 1 ▸ hn) (hinputs.trans List.drop_one.symm)
      obtain ⟨m, t, hm, hrun, hidle⟩ := ih (step_keeps_inv hs hstep) hnu (by omega)
      exact ⟨m + 1, t, Nat.succ_le_succ hm, (runEdges_succ m s u hstep).trans hrun, hidle⟩

/-! ## The statement -/

/-- Settles O45: R420's count of a command's edges is at most 416, and at most 415 edges are left from any place. -/
theorem blockNeverHangs : Obligations.BlockNeverHangs := by
  constructor
  · intro s w hp hw hn
    obtain ⟨h1, h416⟩ := edgesOf_bounds (decode w) s.keycnt
    obtain ⟨t, hrun, hidle⟩ := runEdges_edgesOf hp hw (noReset_mono hn h416)
    exact ⟨_, t, h1, h416, hrun, hidle⟩
  · intro s hs hn
    exact runEdges_idle_of_edgesLeft hs hn (edgesLeft_le s.place)

end Sys2Proof.Machine
